-- ==== Sys2Proof/Word.lean ====
section
/-! DEFINITION. The words the part's messages and records are made of: bytes, byte strings, and the
fixed-size secrets of chapters 6 and 12. Multi-byte values stand most significant byte first
(12_formats.md), so a 32-byte credential is the 256-bit number its bytes spell. -/

namespace Sys2Proof

/-- One byte of a message or a record. -/
abbrev Byte := BitVec 8

/-- A run of bytes, in the order in which they are sent. -/
abbrev Bytes := List Byte

/-- A credential: 32 bytes (6.1). -/
abbrev Credential := BitVec 256

/-- A salt: 16 bytes (6.1). -/
abbrev Salt := BitVec 128

/-- The 64-byte field a key is wrapped in. A K512 key fills it; a K256 key takes its first 32 bytes
and the others are zero filler (R91). -/
abbrev KeyBlock := BitVec 512

/-- A sector tag: 16 bytes (R84). -/
abbrev SectorTag := BitVec 128

end Sys2Proof
end

