-- ==== Sys2Proof/Syntax.lean ====
section
/-! DEFINITION. The commands of the part: one constructor of Instr per row of
spec/opcode_table.json, with the operands the row's message or event carries. Message operands are
the fields as received, in range or not (R164, R165); which values are malformed is decided by the
meanings, not here. -/

namespace Sys2Proof

/-- A job tag in range, 0 to 47 (R1). -/
abbrev TagId := Fin 48
/-- A namespace number in range, 0 to 3 (R40). -/
abbrev NamespaceId := Fin 4
/-- An extent record number in range, 0 to 23 (R43). -/
abbrev ExtentId := Fin 24
/-- A key slot number in range, 0 to 31 (R59). -/
abbrev SlotId := Fin 32
/-- One of the 96 sector buffers (R4). -/
abbrev BufferId := Fin 96
/-- A pipe number (R76). -/
abbrev PipeId := Fin 4
/-- A store handle, 0 to 63 (R47). -/
abbrev Handle := Fin 64

/-- A Job Opener as received (12.1): the length of the whole message and the fields of its layout. -/
structure OpenerMsg where
  length : Nat
  tag : Byte
  direction : Byte
  ns : Byte
  firstLba : BitVec 40
  count : BitVec 16
  reserved : Byte
  deriving DecidableEq, Repr

/-- A Sector In as received (12.1): its header fields and every byte from offset 6 onward. -/
structure SectorInMsg where
  tag : Byte
  flags : Byte
  lengthCode : Byte
  reserved4 : Byte
  reserved5 : Byte
  payload : Bytes
  deriving DecidableEq, Repr

/-- One parameter or data item (12.2): its code and its value bytes; the length byte is the number of
value bytes. -/
structure Item where
  code : Byte
  value : Bytes
  deriving DecidableEq, Repr

/-- A Management Request whose header is not rejected and whose request code is known (12.2): the
sequence number, the target byte and the items as received. The request code is the command. -/
structure Request where
  seq : Byte
  target : Byte
  items : List Item
  deriving DecidableEq, Repr

/-- The inbound channels of the Sector Link (2.1). -/
inductive Channel where
  | control
  | data
  deriving DecidableEq, Repr

/-- The two lines whose rise is a cold start and whose fall stops the part (R157, R159). -/
inductive SupplyLine where
  | powerGood
  | resetN
  deriving DecidableEq, Repr

/-- The 100 bytes of a key record (12.3), field by field; every 100-byte string is one of these. -/
structure KeyRecord where
  marker : Byte
  keySize : Byte
  mode : Byte
  handleEcho : Byte
  salt : Salt
  wrapped : KeyBlock
  tag : BitVec 128
  deriving DecidableEq, Repr, Inhabited

/-- The points of a transaction at which an event of the Key Store Link can fall: the phases of R125
and R126, and the stops the part makes after a missing acknowledge (R127, R128). -/
inductive LinkPoint where
  | openingStart
  | writeAddress
  | handleByte
  | dataByte (k : Fin 100)
  | repeatedStart
  | readAddress
  | receiveByte (k : Fin 100)
  | finalStop
  | addressStop
  | nackStop
  deriving DecidableEq, Repr

/-- The byte of R128 that the device leaves unacknowledged. -/
inductive NackedByte where
  | handleByte
  | dataByte (k : Fin 100)
  deriving DecidableEq, Repr

/-- The names of the Management Requests (12.5). -/
inductive RequestName where
  | identify
  | setNamespace
  | defineExtent
  | retireExtent
  | setPolicy
  | queryExtent
  | querySlot
  | unlock
  | lock
  | rewrap
  | erase
  | generate
  | setLink
  | setTick
  | readEvents
  | clearEvents
  | setEventEnables
  deriving DecidableEq, Repr

/-- The commands, in the order of spec/opcode_table.json. -/
inductive Instr where
  /-- JOB_OPENER (R23): a Job Opener arrives. -/
  | jobOpener (m : OpenerMsg)
  /-- SECTOR_IN (R11): a Sector In arrives. -/
  | sectorIn (m : SectorInMsg)
  /-- HAND_OVER (R79): the Pipe Arbiter gives the oldest entry to this pipe. -/
  | handOver (p : PipeId)
  /-- PIPE_COMPLETION (R86): this pipe's pass ends. -/
  | pipeCompletion (p : PipeId)
  /-- SECTOR_OUT (R16): the drive controller accepts the ready Sector Out of this job. -/
  | sectorOut (t : TagId)
  /-- IDENTIFY (R150). -/
  | identify (r : Request)
  /-- SET NAMESPACE (R41). -/
  | setNamespace (r : Request)
  /-- DEFINE EXTENT (R51). -/
  | defineExtent (r : Request)
  /-- RETIRE EXTENT (R53). -/
  | retireExtent (r : Request)
  /-- SET POLICY (R55). -/
  | setPolicy (r : Request)
  /-- QUERY EXTENT (R57). -/
  | queryExtent (r : Request)
  /-- QUERY SLOT (R73). -/
  | querySlot (r : Request)
  /-- UNLOCK (R94). -/
  | unlock (r : Request)
  /-- LOCK (R101). -/
  | lock (r : Request)
  /-- REWRAP (R103). -/
  | rewrap (r : Request)
  /-- ERASE (R108). -/
  | erase (r : Request)
  /-- GENERATE (R115). -/
  | generate (r : Request)
  /-- SET LINK (R136). -/
  | setLink (r : Request)
  /-- SET TICK (R139). -/
  | setTick (r : Request)
  /-- READ EVENTS (R153). -/
  | readEvents (r : Request)
  /-- CLEAR EVENTS (R154). -/
  | clearEvents (r : Request)
  /-- SET EVENT ENABLES (R155). -/
  | setEventEnables (r : Request)
  /-- UNKNOWN_REQUEST (R148): a Management Request with an unknown code or a rejected header, by the
  code and the sequence number received. -/
  | unknownRequest (code seq : Byte)
  /-- UNKNOWN_MESSAGE_TYPE (R164): a message of unknown type on a channel, whole. -/
  | unknownMessageType (c : Channel) (message : Bytes)
  /-- READ_RECORD_END (R125): the stop completes; of `rest`, the bytes that were not received yet (log 5). -/
  | readRecordEnd (rest : KeyRecord)
  /-- WRITE_RECORD_END (R126): the stop after the 100th byte completes. -/
  | writeRecordEnd
  /-- ADDRESS_NOT_ACKNOWLEDGED (R127): an address byte is not acknowledged, and the stop after it completes. -/
  | addressNotAcknowledged
  /-- POLL_WAIT_END (R127): the poll wait ends. -/
  | pollWaitEnd
  /-- NACK_DATA (R128): this byte is not acknowledged, and the stop after it completes. -/
  | nackData (b : NackedByte)
  /-- STRETCH_TIMEOUT (R129): KSCL is held low beyond the stretch limit at this point. -/
  | stretchTimeout (at_ : LinkPoint)
  /-- COLLISION (R131): a collision at this point; of `rest`, the bytes that were not received yet, read only
  where the collision falls after all bytes are in (R132, log 5). -/
  | collision (at_ : LinkPoint) (rest : KeyRecord)
  /-- FREE_WAIT_EXPIRY (R124): the free-wait timer expires. -/
  | freeWaitExpiry
  /-- OTHER_MASTER_START (R122): a start the part did not make. -/
  | otherMasterStart
  /-- STOP_OBSERVED (R122): a stop on the link. -/
  | stopObserved
  /-- RELEASE_WATCH_QUIET (R122): both lines high for 16 bit periods. -/
  | releaseWatchQuiet
  /-- TICK (R138): the divider counts what is left of the tick period and reaches it. -/
  | tick
  /-- IDLE_EXPIRY (R142): the idle timer of this extent, at 0, expires. -/
  | idleExpiry (e : ExtentId)
  /-- RANDOM_SAMPLE (R118): a noise sample passes its health tests. -/
  | randomSample
  /-- WARM_UP_END (R118): the sample that raises the warm-up count to 1024. -/
  | warmUpEnd
  /-- REPETITION_TEST_FAILURE (R118). -/
  | repetitionTestFailure
  /-- COLD_START (R157): this line rises. -/
  | coldStart (l : SupplyLine)
  /-- SELF_CHECK_END (R158): this pipe's known-answer check ends, passed or failed. -/
  | selfCheckEnd (p : PipeId) (passed : Bool)
  /-- POWER_GOOD_FALLING (R159): this line falls. -/
  | powerGoodFalling (l : SupplyLine)
  /-- HOLD_RISES (R160). -/
  | holdRises
  /-- HOLD_FALLS (R163). -/
  | holdFalls
  /-- DRAIN_TIMER_EXPIRY (R161). -/
  | drainTimerExpiry
  /-- ABANDONED_STOP_COMPLETES (R135): the stop made after abandonment completes. -/
  | abandonedStopCompletes
  deriving DecidableEq, Repr

end Sys2Proof
end

