-- ==== Sys2Proof/WellFormed.lean ====
section
/-! DEFINITION. Which commands can be spelled: what a message or an event of the row can carry at all,
before any rule judges it. An out-of-range field is NOT ill-formed (the rules answer it, R165); a
value that no message can carry, or an event at a point where the spec says it cannot fall, is. -/

namespace Sys2Proof

/-- An item's length byte counts its value bytes (12.2). -/
def Item.wellFormed (i : Item) : Bool :=
  decide (i.value.length ≤ 255)

/-- The bytes an item takes in a message: its code, its length and its value (12.2). -/
def Item.size (i : Item) : Nat :=
  2 + i.value.length

/-- A request's items fit their length bytes and the parameter length, 0 to 1024 (12.2). -/
def Request.wellFormed (r : Request) : Bool :=
  r.items.all Item.wellFormed && decide ((r.items.map Item.size).sum ≤ 1024)

/-- The message types each inbound channel knows: those the table of chapter 12 gives it inbound. R164 speaks of an
unknown type only; that a type of the table which belongs to the other channel, or is outbound, is unknown on this
channel too is a DESIGN CHOICE (log 39). -/
def Channel.knownTypes : Channel → List Byte
  | .control => [0x10, 0x12]
  | .data => [0x11]

/-- A message whose type byte its channel does not know, or which has none (log 39). -/
def unknownOn (c : Channel) (message : Bytes) : Bool :=
  match message with
  | [] => true
  | t :: _ => !c.knownTypes.contains t

/-- A collision is checked at the points of R130: at a received byte only in the not-acknowledge after
the 100th. -/
def LinkPoint.collisionPoint : LinkPoint → Bool
  | .receiveByte k => decide (k.val = 99)
  | _ => true

/-- The commands that can be spelled. -/
def Instr.wellFormed : Instr → Bool
  | .jobOpener m => decide (1 ≤ m.length)
  | .sectorIn _ => true
  | .handOver _ => true
  | .pipeCompletion _ => true
  | .sectorOut _ => true
  | .identify r => r.wellFormed
  | .setNamespace r => r.wellFormed
  | .defineExtent r => r.wellFormed
  | .retireExtent r => r.wellFormed
  | .setPolicy r => r.wellFormed
  | .queryExtent r => r.wellFormed
  | .querySlot r => r.wellFormed
  | .unlock r => r.wellFormed
  | .lock r => r.wellFormed
  | .rewrap r => r.wellFormed
  | .erase r => r.wellFormed
  | .generate r => r.wellFormed
  | .setLink r => r.wellFormed
  | .setTick r => r.wellFormed
  | .readEvents r => r.wellFormed
  | .clearEvents r => r.wellFormed
  | .setEventEnables r => r.wellFormed
  | .unknownRequest _ _ => true
  | .unknownMessageType c m => unknownOn c m
  | .readRecordEnd _ => true
  | .writeRecordEnd => true
  | .addressNotAcknowledged => true
  | .pollWaitEnd => true
  | .nackData _ => true
  | .stretchTimeout _ => true
  | .collision p _ => p.collisionPoint
  | .freeWaitExpiry => true
  | .otherMasterStart => true
  | .stopObserved => true
  | .releaseWatchQuiet => true
  | .tick => true
  | .idleExpiry _ => true
  | .randomSample => true
  | .warmUpEnd => true
  | .repetitionTestFailure => true
  | .coldStart _ => true
  | .selfCheckEnd _ _ => true
  | .powerGoodFalling _ => true
  | .holdRises => true
  | .holdFalls => true
  | .drainTimerExpiry => true
  | .abandonedStopCompletes => true

end Sys2Proof
end

