-- ==== Sys2Proof/Decode.lean ====
section
/-! DEFINITION. The decoder the host asks about (decodeTableWord: the table gives no row any bits), and
the reading of the Sector Link's inbound messages from their bytes (12.1, 12.2, R164), with the
encoders of the same layouts after them. -/

namespace Sys2Proof

/-- The command a word spells by the bits of spec/opcode_table.json. The table gives no row a pattern
of bits, so no word spells a command. -/
def decodeTableWord (_nbits _w : Nat) : Option Instr :=
  none

/-! ## Bytes, most significant first (chapter 12) -/

/-- The number a run of bytes spells, most significant byte first. -/
def beNat (bs : Bytes) : Nat :=
  bs.foldl (fun a b => a * 256 + b.toNat) 0

/-- The n bytes of a number, most significant byte first; bits above them are dropped. -/
def beBytes : Nat → Nat → Bytes
  | 0, _ => []
  | n + 1, v => beBytes n (v / 256) ++ [BitVec.ofNat 8 v]

/-- The byte at an offset; 0 where the message ends before it (log 18). -/
def byteAt (n : Nat) (bs : Bytes) : Byte :=
  bs.getD n 0

/-- The number in the bytes from one offset up to another. -/
def fieldAt (first len : Nat) (bs : Bytes) : Nat :=
  beNat ((bs.drop first).take len)

/-! ## Request codes (12.5) -/

/-- The request code of a name. -/
def RequestName.code : RequestName → Byte
  | .identify => 0x01
  | .setNamespace => 0x02
  | .defineExtent => 0x03
  | .retireExtent => 0x04
  | .setPolicy => 0x05
  | .queryExtent => 0x06
  | .querySlot => 0x07
  | .unlock => 0x09
  | .lock => 0x0A
  | .rewrap => 0x0B
  | .erase => 0x0C
  | .generate => 0x0D
  | .setLink => 0x0E
  | .setTick => 0x0F
  | .readEvents => 0x10
  | .clearEvents => 0x11
  | .setEventEnables => 0x12

/-- The name a request code stands for, if it is known. -/
def RequestName.ofCode (c : Byte) : Option RequestName :=
  [RequestName.identify, .setNamespace, .defineExtent, .retireExtent, .setPolicy, .queryExtent,
    .querySlot, .unlock, .lock, .rewrap, .erase, .generate, .setLink, .setTick, .readEvents,
    .clearEvents, .setEventEnables].find? fun n => n.code == c

/-- The command of a request name. -/
def Instr.ofRequest : RequestName → Request → Instr
  | .identify, r => .identify r
  | .setNamespace, r => .setNamespace r
  | .defineExtent, r => .defineExtent r
  | .retireExtent, r => .retireExtent r
  | .setPolicy, r => .setPolicy r
  | .queryExtent, r => .queryExtent r
  | .querySlot, r => .querySlot r
  | .unlock, r => .unlock r
  | .lock, r => .lock r
  | .rewrap, r => .rewrap r
  | .erase, r => .erase r
  | .generate, r => .generate r
  | .setLink, r => .setLink r
  | .setTick, r => .setTick r
  | .readEvents, r => .readEvents r
  | .clearEvents, r => .clearEvents r
  | .setEventEnables, r => .setEventEnables r

/-! ## Inbound messages -/

/-- The items that fill a run of bytes exactly, if they do (12.2). The fuel is the number of bytes. -/
def parseItems : Nat → Bytes → Option (List Item)
  | _, [] => some []
  | fuel + 1, c :: l :: rest =>
    if l.toNat ≤ rest.length then
      (parseItems fuel (rest.drop l.toNat)).map (Item.mk c (rest.take l.toNat) :: ·)
    else none
  | _, _ => none

/-- A Job Opener from its bytes (12.1). -/
def decodeOpener (bs : Bytes) : OpenerMsg :=
  { length := bs.length
    tag := byteAt 1 bs
    direction := byteAt 2 bs
    ns := byteAt 3 bs
    firstLba := BitVec.ofNat 40 (fieldAt 4 5 bs)
    count := BitVec.ofNat 16 (fieldAt 9 2 bs)
    reserved := byteAt 11 bs }

/-- A Management Request from its bytes (12.2, R164): a header whose items do not fill its parameter
length exactly is rejected, and an unknown code is UNKNOWN_REQUEST. -/
def decodeRequest (bs : Bytes) : Instr :=
  let code := byteAt 1 bs
  let seq := byteAt 2 bs
  let len := fieldAt 4 2 bs
  if bs.length < 6 ∨ len ≠ bs.length - 6 ∨ 1024 < len then .unknownRequest code seq
  else
    match RequestName.ofCode code, parseItems len (bs.drop 6) with
    | some n, some items => Instr.ofRequest n { seq := seq, target := byteAt 3 bs, items := items }
    | _, _ => .unknownRequest code seq

/-- A message of the inbound control channel. Every type but 0x10 and 0x12 is unknown on it, those of Sector In and of
the outbound messages among them, and so is a message without a byte (DESIGN CHOICE, log 39). -/
def decodeControl (bs : Bytes) : Instr :=
  match bs with
  | [] => .unknownMessageType .control []
  | t :: _ =>
    if t = 0x10 then .jobOpener (decodeOpener bs)
    else if t = 0x12 then decodeRequest bs
    else .unknownMessageType .control bs

/-- A Sector In from its bytes (12.1). A message that ends before its tag names no tag in range
(log 18). -/
def decodeSectorIn (bs : Bytes) : SectorInMsg :=
  { tag := bs.getD 1 0xFF
    flags := byteAt 2 bs
    lengthCode := byteAt 3 bs
    reserved4 := byteAt 4 bs
    reserved5 := byteAt 5 bs
    payload := bs.drop 6 }

/-- A message of the inbound data channel. Every type but 0x11 is unknown on it, those of the control channel and of the
outbound messages among them, and so is a message without a byte (DESIGN CHOICE, log 39). -/
def decodeData (bs : Bytes) : Instr :=
  match bs with
  | [] => .unknownMessageType .data []
  | t :: _ =>
    if t = 0x11 then .sectorIn (decodeSectorIn bs) else .unknownMessageType .data bs

/-! ## The same layouts, encoded -/

/-- The bytes of a 12-byte Job Opener. -/
def encodeOpener (m : OpenerMsg) : Bytes :=
  [0x10, m.tag, m.direction, m.ns] ++ beBytes 5 m.firstLba.toNat ++ beBytes 2 m.count.toNat
    ++ [m.reserved]

/-- The bytes of a Sector In. -/
def encodeSectorIn (m : SectorInMsg) : Bytes :=
  [0x11, m.tag, m.flags, m.lengthCode, m.reserved4, m.reserved5] ++ m.payload

/-- The bytes of a run of items. -/
def encodeItems (items : List Item) : Bytes :=
  items.flatMap fun i => i.code :: BitVec.ofNat 8 i.value.length :: i.value

/-- The bytes of a Management Request. -/
def encodeRequest (n : RequestName) (r : Request) : Bytes :=
  [0x12, n.code, r.seq, r.target] ++ beBytes 2 (encodeItems r.items).length ++ encodeItems r.items

end Sys2Proof
end

