-- ==== Sys2Proof/Machine/Records.lean ====
section
/-! DEFINITION. The records and collections the nine blocks keep (2.2), as plain data. Fields that
the spec makes present exactly in some state are arguments of that state's constructor, so that a
record with the wrong fields present cannot be written. Machine/State.lean puts them together. -/

namespace Sys2Proof.Machine

/-! ## Codes shared by the chapters -/

/-- A job's direction (4.3). -/
inductive Direction where
  | encipher
  | decipher
  deriving DecidableEq, Repr, Inhabited

/-- The conditions of 12.4. -/
inductive Condition where
  | format
  | tagInUse
  | tableFull
  | starting
  | holding
  | failed
  | noNamespace
  | beyondEnd
  | straddle
  | barred
  | locked
  | keyErased
  | keyAbsent
  | keyWorn
  | tagMismatch
  | overrun
  deriving DecidableEq, Repr

/-- The cut reasons of 1.9. -/
inductive CutReason where
  | cutLock
  | cutErase
  | cutHold
  deriving DecidableEq, Repr, Inhabited

/-- The conditions that stop a job in flight (R3). -/
inductive StopCondition where
  | tagMismatch
  | overrun
  | format
  deriving DecidableEq, Repr, Inhabited

/-- The conditions a job can be filled for (R33). -/
inductive FillCondition where
  | locked
  | keyErased
  | keyAbsent
  deriving DecidableEq, Repr, Inhabited

/-- Why a job is ENDING: a condition or a cut reason (1.1). -/
inductive EndReason where
  | stop (c : StopCondition)
  | cut (r : CutReason)
  deriving DecidableEq, Repr, Inhabited

/-- The result codes of 12.5. -/
inductive ResultCode where
  | ok
  | format
  | busy
  | starting
  | holding
  | failed
  | abandoned
  | noExtent
  | noNamespace
  | nsBusy
  | fixed
  | inUse
  | range
  | overlap
  | extentBusy
  | limitBelowCount
  | barred
  | keyErased
  | keyPresent
  | noSlot
  | notReady
  | keyVoid
  | recordBad
  | badCredential
  | verifyFail
  | storeNotVoided
  | noDevice
  | nackData
  | stretchTimeout
  | lost
  | linkStuck
  deriving DecidableEq, Repr

/-! ## The Job Unit -/

/-- A job's mode, with the slot it pins in CIPHER mode and the condition it fills for in FILL mode
(1.1: each present exactly in its mode). -/
inductive JobMode where
  | cipher (slot : SlotId)
  | fill (c : FillCondition)
  deriving DecidableEq, Repr, Inhabited

/-- A job's state, with the fault index and the end reason of an ENDING job (1.1). -/
inductive JobState where
  | active
  | ending (faultIndex : Nat) (reason : EndReason)
  deriving DecidableEq, Repr, Inhabited

/-- An entry of a result hold (R15). -/
structure HeldResult where
  index : Nat
  buffer : BufferId
  fill : Bool
  deriving DecidableEq, Repr, Inhabited

/-- A job record; its tag is its place in the Job Table (1.1). -/
structure Job where
  direction : Direction
  ns : NamespaceId
  firstLba : Nat
  count : Nat
  extent : ExtentId
  mode : JobMode
  state : JobState
  nextToReceive : Nat
  nextToEmit : Nat
  sectorsInPipes : Nat
  hold : List HeldResult
  substituted : Nat
  deriving DecidableEq, Repr, Inhabited

/-- The four uses of a buffer (R4). -/
inductive BufferUse where
  | free
  | listed
  | inPipe
  | held
  deriving DecidableEq, Repr, Inhabited

/-- A Sector Buffer: its use, the sector data in it and the sector tag beside it, if any (R4). -/
structure Buffer where
  use : BufferUse
  data : Bytes
  tag : Option SectorTag
  deriving DecidableEq, Repr, Inhabited

/-- A FREE buffer holds nothing (R4). -/
def Buffer.empty : Buffer := { use := .free, data := [], tag := none }

/-- An entry of the Ready Sector List (R6). -/
structure ReadyEntry where
  tag : TagId
  index : Nat
  buffer : BufferId
  deriving DecidableEq, Repr, Inhabited

/-- A well-formed Sector In whose acceptance is withheld (R12). -/
structure Withheld where
  tag : TagId
  data : Bytes
  stored : Option SectorTag
  deriving DecidableEq, Repr, Inhabited

/-- A message standing in the inbound data channel. -/
inductive DataMsg where
  | sector (m : SectorInMsg)
  | unknown
  deriving DecidableEq, Repr

/-! ## The Extent Unit -/

/-- The sector sizes (R40). -/
inductive SectorSize where
  | b512
  | b4096
  deriving DecidableEq, Repr, Inhabited

/-- A namespace table entry (R40). -/
structure Namespace where
  size : Nat
  sectorSize : SectorSize
  deriving DecidableEq, Repr, Inhabited

/-- A fault mask entry (2.5). -/
inductive MaskEntry where
  | fill
  | stop
  deriving DecidableEq, Repr, Inhabited

/-- Idle modes (3.2). -/
inductive IdleMode where
  | off
  | lockOnce
  | noticeRepeat
  deriving DecidableEq, Repr, Inhabited

/-- Idle steps (3.2). -/
inductive IdleStep where
  | x1
  | x64
  deriving DecidableEq, Repr, Inhabited

/-- An extent's policy: try limit to stop at limit (3.2). -/
structure Policy where
  tryLimit : Nat
  maskLocked : MaskEntry
  maskKeyErased : MaskEntry
  maskKeyAbsent : MaskEntry
  maskTagMismatch : MaskEntry
  fillByte : Byte
  reportConditions : Bool
  lockOnHold : Bool
  idleMode : IdleMode
  idleCount : Nat
  idleStep : IdleStep
  forgetOnIdle : Bool
  usageLimit : Nat
  stopAtLimit : Bool
  deriving DecidableEq, Repr, Inhabited

/-- The policy fields a request carries (3.4, 3.6); an absent one is not carried. -/
structure PolicyUpdate where
  tryLimit : Option Nat
  maskLocked : Option MaskEntry
  maskKeyErased : Option MaskEntry
  maskKeyAbsent : Option MaskEntry
  maskTagMismatch : Option MaskEntry
  fillByte : Option Byte
  reportConditions : Option Bool
  lockOnHold : Option Bool
  idleMode : Option IdleMode
  idleCount : Option Nat
  idleStep : Option IdleStep
  forgetOnIdle : Option Bool
  usageLimit : Option Nat
  stopAtLimit : Option Bool
  deriving DecidableEq, Repr

/-- Key status, with the slot of a LIVE extent (R45: present exactly while LIVE). -/
inductive KeyStatus where
  | none
  | live (slot : SlotId)
  | erased
  deriving DecidableEq, Repr, Inhabited

/-- The span of a defined extent (3.2). -/
structure Span where
  first : Nat
  last : Nat
  deriving DecidableEq, Repr, Inhabited

/-- A DEFINED extent record; a FREE record is an absent one (3.2). Global extents have no span. -/
structure Extent where
  ns : NamespaceId
  span : Option Span
  handle : Handle
  key : KeyStatus
  readLock : Bool
  writeLock : Bool
  barred : Bool
  tryCount : Nat
  policy : Policy
  storeStale : Bool
  deriving DecidableEq, Repr, Inhabited

/-! ## The Slot Unit -/

/-- Key sizes (4.1). -/
inductive KeySize where
  | k256
  | k512
  deriving DecidableEq, Repr, Inhabited

/-- Slot modes (4.3). -/
inductive SlotMode where
  | tweak
  | tagged
  deriving DecidableEq, Repr, Inhabited

/-- A working key with its size and mode. A K256 key is the first 32 bytes of the block, the rest
zero (R91). -/
structure LoadedKey where
  block : KeyBlock
  size : KeySize
  mode : SlotMode
  deriving DecidableEq, Repr, Inhabited

/-- A slot's state, with the bound extent of LOADING and READY and the key of READY and DRAINING
(table of 4.2). -/
inductive SlotState where
  | empty
  | loading (e : ExtentId)
  | ready (e : ExtentId) (k : LoadedKey)
  | draining (k : LoadedKey)
  deriving DecidableEq, Repr, Inhabited

/-- A key slot (4.1). -/
structure Slot where
  state : SlotState
  pins : Nat
  usage : Nat
  limit : Nat
  stopAtLimit : Bool
  worn : Bool
  deriving DecidableEq, Repr, Inhabited

/-- The EMPTY values (R59). -/
def Slot.empty : Slot :=
  { state := .empty, pins := 0, usage := 0, limit := 0, stopAtLimit := false, worn := false }

/-! ## The pipes -/

/-- A sector's tweak: what it is built from, and nothing else (R82). -/
structure Tweak where
  lba : Nat
  ns : NamespaceId
  deriving DecidableEq, Repr, Inhabited

/-- A pass context (5.1). `key` is the working copy of the key. The sector's intermediate data is no field: the
spec does not say what it holds during a pass (DESIGN CHOICE, log 35). -/
structure Pass where
  tag : TagId
  index : Nat
  buffer : BufferId
  slot : SlotId
  size : KeySize
  mode : SlotMode
  direction : Direction
  tweak : Tweak
  sectorSize : SectorSize
  key : KeyBlock
  deriving DecidableEq, Repr, Inhabited

/-- A pipe: its service state, whether its self-check has still to end, and its pass context, which
is present exactly while it is busy (5.1, R158). -/
structure Pipe where
  inService : Bool
  checkPending : Bool
  pass : Option Pass
  deriving DecidableEq, Repr, Inhabited

/-! ## The Credential Unit -/

/-- The working context (R93): credentials, wrapping keys, the record read, the unwrapped or newly drawn key,
and the record built for a write (log 27). -/
structure WorkingContext where
  credential : Option Credential
  newCredential : Option Credential
  wrappingKeys : List Bytes
  recordRead : Option KeyRecord
  recordBuilt : Option KeyRecord
  key : Option LoadedKey
  deriving DecidableEq, Repr, Inhabited

/-- The empty, zeroized working context (R93). -/
def WorkingContext.empty : WorkingContext :=
  { credential := none, newCredential := none, wrappingKeys := [], recordRead := none
    recordBuilt := none, key := none }

/-- States of the Random Source (R118). -/
inductive RandomState where
  | warming
  | ready
  | failed
  deriving DecidableEq, Repr, Inhabited

/-- The Random Source (R118). -/
structure RandomSource where
  state : RandomState
  warmUp : Nat
  deriving DecidableEq, Repr, Inhabited

/-! ## The Link Master -/

/-- Link tracking values (R122). -/
inductive Tracking where
  | free
  | busyOther
  deriving DecidableEq, Repr, Inhabited

/-- The nine states of the Link Master (8.3). -/
inductive LinkState where
  | idle
  | waitFree
  | start
  | address
  | send
  | restart
  | receive
  | stop
  | pollWait
  deriving DecidableEq, Repr, Inhabited

/-- Transaction kinds (8.3). -/
inductive TransactionKind where
  | readRecord
  | writeRecord
  deriving DecidableEq, Repr, Inhabited

/-- How far the current attempt has gone (8.3): the address byte, the handle byte, data byte 1 to 100. -/
inductive Position where
  | address
  | handleByte
  | dataByte (n : Nat)
  deriving DecidableEq, Repr, Inhabited

/-- Which stop the part makes in STOP: the one that completes the transaction (R125, R126), the one after an
unacknowledged address (R127), the one after an unacknowledged handle or data byte (R128), or the one that
abandonment makes (R135). -/
inductive StopCause where
  | final
  | address
  | nack
  | abandonment
  deriving DecidableEq, Repr, Inhabited

/-- A transaction context (8.3). `record` is the bytes to be written, or the bytes received so far. The last two
fields are the model's own: which stop is made in STOP (final in every other state), and how far the element
being made has got on the two lines (logs 22 and 33). -/
structure Transaction where
  kind : TransactionKind
  handle : Handle
  record : Bytes
  position : Position
  lossCount : Nat
  addressAttempts : Nat
  writeBegun : Bool
  finalStopSent : Bool
  abandoning : Bool
  stopCause : StopCause
  phase : Nat
  deriving DecidableEq, Repr, Inhabited

/-- What the part does to a line: it drives it low, or releases it to the board's pull-up (R121). -/
inductive Drive where
  | low
  | released
  deriving DecidableEq, Repr, Inhabited

/-- What the part does to the two lines of the Key Store Link. -/
structure Lines where
  kscl : Drive
  ksda : Drive
  deriving DecidableEq, Repr, Inhabited

/-- The write facts of a write operation (R123, R134). -/
structure WriteFacts where
  writeBegun : Bool
  finalStopSent : Bool
  verified : Bool
  deriving DecidableEq, Repr, Inhabited

/-- The state of a write operation, kept beside the contexts of its two transactions (R123). -/
structure WriteOperation extends WriteFacts where
  bytes : KeyRecord
  deriving DecidableEq, Repr, Inhabited

/-- Link rates (R121). -/
inductive LinkRate where
  | k400
  | m1
  deriving DecidableEq, Repr, Inhabited

/-- The settings of SET LINK but stall on full, which the Job Unit holds (R136, 2.3). Limits are in ms. -/
structure LinkSettings where
  rate : LinkRate
  deviceAddress : Byte
  stretchLimit : Nat
  freeWaitLimit : Nat
  deriving DecidableEq, Repr, Inhabited

/-- The Link Master (8.3). -/
structure LinkMaster where
  state : LinkState
  transaction : Option Transaction
  operation : Option WriteOperation
  freeWait : Option Nat
  tracking : Tracking
  releaseWatch : Bool
  settings : LinkSettings
  deriving DecidableEq, Repr, Inhabited

/-- The LINK failure codes (R134). -/
inductive LinkFailure where
  | noDevice
  | nackData
  | stretchTimeout
  | lost
  | linkStuck
  deriving DecidableEq, Repr, Inhabited

/-- The write phases (R106). -/
inductive WritePhase where
  | notBegun
  | uncertain
  | verified
  deriving DecidableEq, Repr, Inhabited

/-- The outcomes of a write operation (R133). -/
inductive WriteOutcome where
  | verified
  | differs
  | failed (f : LinkFailure)
  deriving DecidableEq, Repr, Inhabited

/-- The end of a write operation as reported to the Credential Unit: its result and its write facts (R134). -/
structure WriteEnd where
  outcome : WriteOutcome
  facts : WriteFacts
  deriving DecidableEq, Repr, Inhabited

/-! ## The Timer Unit -/

/-- The eight tick periods (R138). -/
inductive TickPeriod where
  | s1over32
  | s1over16
  | s1over8
  | s1over4
  | s1over2
  | s1
  | s2
  | s4
  deriving DecidableEq, Repr, Inhabited

/-- An idle timer; the remaining count is present exactly while COUNTING (9.2). -/
inductive IdleTimer where
  | disarmed
  | suspended
  | counting (remaining : Nat)
  deriving DecidableEq, Repr, Inhabited

/-! ## The Management Unit -/

/-- The directions a request names. -/
structure Directions where
  read : Bool
  write : Bool
  deriving DecidableEq, Repr, Inhabited

/-- A long request (10.3) and what it has still to do.
`unlock`: the slot allocated for it, if any (R94).
`rewrap`: whether the proof has been given (R104).
`erase`: the slot whose drain it waits for, if any, and the end of its void write once taken (R110).
`generate`: the slot allocated (R115). -/
inductive LongRequest where
  | unlock (e : ExtentId) (dirs : Directions) (slot : Option SlotId)
  | rewrap (e : ExtentId) (proven : Bool)
  | erase (e : ExtentId) (drain : Option SlotId) (written : Option WriteEnd)
  | generate (e : ExtentId) (dirs : Directions) (slot : SlotId)
  deriving DecidableEq, Repr, Inhabited

/-- The occupied executing-request slot (10.2). The name and the owning block are those of the request. -/
structure Executing where
  seq : Byte
  request : LongRequest
  deriving DecidableEq, Repr, Inhabited

/-- The 13 event flags, in the order of the table of 10.5. -/
inductive Flag where
  | coldStart
  | selfCheckFail
  | randomFail
  | stray
  | overrun
  | holdCut
  | idleLock
  | idleNotice
  | keyWorn
  | barred
  | storeStale
  | linkFail
  | jobFault
  deriving DecidableEq, Repr, Inhabited

/-- An event flag's state, with the reported mark of a SET flag (10.5). -/
inductive FlagState where
  | clear
  | set (reported : Bool)
  deriving DecidableEq, Repr, Inhabited

/-- An event flag (R151). -/
structure EventFlag where
  state : FlagState
  enable : Bool
  deriving DecidableEq, Repr, Inhabited

/-! ## The Power Unit -/

/-- Power states (11.1). -/
inductive PowerState where
  | starting
  | run
  | quiescing
  | hold
  | failed
  deriving DecidableEq, Repr, Inhabited

/-- The running drain timer: its remaining time and the limit captured when it was started (11.1), in ms. -/
structure DrainTimer where
  remaining : Nat
  captured : Nat
  deriving DecidableEq, Repr, Inhabited

/-! ## Outbound messages -/

/-- The outcomes of 12.4. -/
inductive JobOutcome where
  | done
  | refused
  | stopped
  | aborted
  deriving DecidableEq, Repr

/-- The condition or reason a Closer carries (R21). -/
inductive CloserCause where
  | condition (c : Condition)
  | cut (r : CutReason)
  deriving DecidableEq, Repr

/-- A Job Closer (R21); its tag is a byte, since a FORMAT refusal carries the opener's tag as received (R24). -/
structure Closer where
  tag : Byte
  outcome : JobOutcome
  cause : Option CloserCause
  extent : Option ExtentId
  emitted : Nat
  substituted : Nat
  faultIndex : Option Nat
  deriving DecidableEq, Repr

/-- A Management Answer (R147); its code is a byte, since an unknown code is echoed as received (R164). -/
structure Answer where
  code : Byte
  seq : Byte
  result : ResultCode
  items : List Item
  deriving DecidableEq, Repr

/-- A message of the outbound control channel (R17). -/
inductive ControlMsg where
  | closer (c : Closer)
  | answer (a : Answer)
  deriving DecidableEq, Repr

/-- A Sector Out (R16). -/
structure SectorOutMsg where
  tag : TagId
  index : Nat
  fill : Bool
  data : Bytes
  trailer : Option SectorTag
  deriving DecidableEq, Repr

/-! ## The blocks together -/

/-- What the nine blocks keep while the part has power, each field under the block that owns it (2.2).
All of it is lost when power fails (R159) and replaced by a cold start (R157). -/
structure Blocks where
  -- Job Unit
  jobs : Vector (Option Job) 48
  buffers : Vector Buffer 96
  ready : List ReadyEntry
  withheld : Option Withheld
  inbound : List DataMsg
  stallOnFull : Bool
  -- Extent Unit
  namespaces : Vector Namespace 4
  extents : Vector (Option Extent) 24
  -- Slot Unit
  slots : Vector Slot 32
  -- Cipher Pipes
  pipes : Vector Pipe 4
  -- Credential Unit
  context : WorkingContext
  random : RandomSource
  -- Link Master
  link : LinkMaster
  -- Timer Unit
  tickPeriod : TickPeriod
  divider : Nat
  drainLimit : Nat
  timers : Vector IdleTimer 24
  -- Management Unit
  executing : Option Executing
  flags : Vector EventFlag 13
  -- Power Unit
  power : PowerState
  drainTimer : Option DrainTimer
  deriving DecidableEq, Repr, Inhabited

end Sys2Proof.Machine
end

