-- ==== Sys2Proof/Config.lean ====
section
/-! DEFINITION. What one part fixes and what the spec leaves open: constants with no body, so that no
proof can see a value of them and every statement holds whatever they are. The functions the spec
names without their arithmetic (4.4) are here; where the spec states a property of one (the
transform is length-preserving and has an inverse, an unwrap restores what was wrapped), the type
says it. -/

namespace Sys2Proof

open Sys2Proof.Machine

/-- The code of the DL-340 (R150, item 0x68); the spec gives no value (log 11). -/
opaque Config.partCode : BitVec 16

/-- The silicon revision (R150, item 0x69); the spec gives no value (log 11). -/
opaque Config.revision : Byte

/-- The device secret, fixed in the part when it is made (6.1); no size is given (log 11). -/
opaque Config.deviceSecret : Bytes

/-- The derivation of a wrapping key from the device secret, a credential and a salt (6.1). -/
opaque Config.deriveWrappingKey : Bytes → Credential → Salt → Bytes

/-- The wrap of the 64-byte key field under a wrapping key; the unwrap is its inverse (R92: an unwrap of
a sound record always succeeds). -/
opaque Config.keyWrap : Bytes → Equiv.Perm KeyBlock

/-- The record tag over the first 84 bytes of a record, under a wrapping key (R91). -/
opaque Config.recordTag : Bytes → Bytes → BitVec 128

/-- The sector transform under a key of a size and a tweak, on n bytes of data: length-preserving, with
an inverse (5.3). -/
opaque Config.sectorCipher : KeySize → KeyBlock → Tweak → (n : Nat) → Equiv.Perm (Vector Byte n)

/-- The sector tag: a function of the key, the tweak and the sector's (plain) data (R84, R85). -/
opaque Config.sectorTag : KeySize → KeyBlock → Tweak → Bytes → SectorTag

/-- A free value: the key output of the Random Source at the n-th draw (R119, log 10). -/
opaque Config.randomKey : Nat → KeyBlock

/-- A free value: the salt output of the Random Source at the n-th draw (R119, log 10). -/
opaque Config.randomSalt : Nat → Salt

/-- A free value: the n-th value taken, as a byte that the key store device sends (R125, log 5). -/
opaque Config.receivedByte : Nat → Byte

/-- A free value: the n-th value taken, as the acknowledge that the key store device gives a byte of the part or
leaves out (R127, R128, log 22). -/
opaque Config.deviceAcknowledges : Nat → Bool

/-- A free value: what is left in the records when power fails, before key material is zeroized (R159,
"not defined and not reachable"; log 8). -/
opaque Config.lostBlocks : Nat → Blocks

/-- Whether a request whose items stand out of ascending order is refused FORMAT; 12.2 says they stand
in that order and no rule says what happens where they do not (log 16). -/
opaque Config.refuseOutOfOrder : Bool

/-- The sequence number echoed to an unknown message that ends before offset 2 (R164 does not say; log 18). -/
opaque Config.missingSeq : Bytes → Byte

end Sys2Proof
end

