-- ==== Sys2Proof/Machine/State.lean ====
section
/-! DEFINITION. The state of the part: what its nine blocks keep (Machine/Records.lean), the levels of
its lines, the messages it has emitted, and the queue of commands that wait. State.reset is the part
right after a cold start (R157). -/

namespace Sys2Proof.Machine

/-- Why the part stops with a fault: never. The spec gives the part no fault that ends its operation;
loss of power makes it inert until a cold start (R159), and everything else is answered, flagged or
dropped. Nobody raises one, which is safe. -/
inductive Fault
  deriving DecidableEq, Repr

/-- Why a command has no meaning in this model. -/
inductive Refusal where
  /-- Raised by exec for a command that has no meaning yet; none is left. Safe: the run stops. -/
  | notModelled (mnemonic : String)
  deriving DecidableEq, Repr

/-- The state of the part. `draws` is the model's own counter: the free values of Config are taken at it
(log 10). `outControl` and `outData` are the messages emitted so far on the two outbound channels, oldest
first (R17, log 15). `pending` is the queue of commands. -/
structure State extends Blocks where
  powerGood : Bool
  resetN : Bool
  holdLevel : Bool
  attn : Bool
  draws : Nat
  outControl : List ControlMsg
  outData : List SectorOutMsg
  pending : List Instr
  deriving DecidableEq, Repr

/-- The part runs while POWER_GOOD and RESET_N are both high (R157, R159). -/
def State.powered (s : State) : Bool :=
  s.powerGood && s.resetN

/-! ## Cold start values (R157) -/

/-- A pipe after cold start: idle, IN_SERVICE pending its self-check (R76). -/
def Pipe.coldStart : Pipe :=
  { inService := true, checkPending := true, pass := none }

/-- The link settings after cold start (table of 8.11). -/
def LinkSettings.coldStart : LinkSettings :=
  { rate := .k400, deviceAddress := 0x3A, stretchLimit := 16, freeWaitLimit := 50 }

/-- The Link Master after cold start (R137). -/
def LinkMaster.coldStart : LinkMaster :=
  { state := .idle, transaction := none, operation := none, freeWait := none
    tracking := .busyOther, releaseWatch := true, settings := LinkSettings.coldStart }

/-- A clear event flag with its enable set. -/
def EventFlag.enabled : EventFlag := { state := .clear, enable := true }

/-- A clear event flag with its enable clear. -/
def EventFlag.disabled : EventFlag := { state := .clear, enable := false }

/-- The event flags after cold start, in the order of the table of 10.5: COLD_START is SET with mark no,
and IDLE_NOTICE (the eighth) and JOB_FAULT (the last) are not enabled. -/
def coldStartFlags : Vector EventFlag 13 :=
  #v[{ state := .set false, enable := true }, .enabled, .enabled, .enabled, .enabled, .enabled,
     .enabled, .disabled, .enabled, .enabled, .enabled, .enabled, .disabled]

/-- Every block's state after cold start (table of R157). -/
def Blocks.coldStart : Blocks :=
  { jobs := Vector.replicate 48 none
    buffers := Vector.replicate 96 Buffer.empty
    ready := []
    withheld := none
    inbound := []
    stallOnFull := true
    namespaces := Vector.replicate 4 { size := 0, sectorSize := .b512 }
    extents := Vector.replicate 24 none
    slots := Vector.replicate 32 Slot.empty
    pipes := Vector.replicate 4 Pipe.coldStart
    context := WorkingContext.empty
    random := { state := .warming, warmUp := 0 }
    link := LinkMaster.coldStart
    tickPeriod := .s1
    divider := 0
    drainLimit := 20
    timers := Vector.replicate 24 .disarmed
    executing := none
    flags := coldStartFlags
    power := .starting
    drainTimer := none }

/-- The part right after a cold start, with both supply lines high and ATTN asserted (R157, R152). The
HOLD level at reset is the model's choice, low (log 7); nothing has been emitted and no command waits. -/
def State.reset : State :=
  { toBlocks := Blocks.coldStart
    powerGood := true
    resetN := true
    holdLevel := false
    attn := true
    draws := 0
    outControl := []
    outData := []
    pending := [] }

end Sys2Proof.Machine
end

