-- ==== Sys2Proof/Machine/Formats.lean ====
section
/-! DEFINITION. The codes of chapter 12 and the bytes of what the part emits and stores: data items,
Sector Out, Job Closers, Management Answers, key records. -/

namespace Sys2Proof.Machine

/-! ## Code values (12.2, 12.4, 12.5) -/

/-- Conditions (12.4). -/
def Condition.code : Condition → Byte
  | .format => 0x01
  | .tagInUse => 0x02
  | .tableFull => 0x03
  | .starting => 0x04
  | .holding => 0x05
  | .failed => 0x06
  | .noNamespace => 0x07
  | .beyondEnd => 0x08
  | .straddle => 0x09
  | .barred => 0x0A
  | .locked => 0x0B
  | .keyErased => 0x0C
  | .keyAbsent => 0x0D
  | .keyWorn => 0x0E
  | .tagMismatch => 0x0F
  | .overrun => 0x10

/-- Cut reasons (12.4). -/
def CutReason.code : CutReason → Byte
  | .cutLock => 0x21
  | .cutErase => 0x22
  | .cutHold => 0x23

/-- Outcomes (12.4). -/
def JobOutcome.code : JobOutcome → Byte
  | .done => 0x01
  | .refused => 0x02
  | .stopped => 0x03
  | .aborted => 0x04

/-- Result codes (12.5). -/
def ResultCode.code : ResultCode → Byte
  | .ok => 0x00
  | .format => 0x01
  | .busy => 0x02
  | .starting => 0x03
  | .holding => 0x04
  | .failed => 0x05
  | .abandoned => 0x06
  | .noExtent => 0x20
  | .noNamespace => 0x21
  | .nsBusy => 0x22
  | .fixed => 0x23
  | .inUse => 0x24
  | .range => 0x25
  | .overlap => 0x26
  | .extentBusy => 0x27
  | .limitBelowCount => 0x28
  | .barred => 0x40
  | .keyErased => 0x41
  | .keyPresent => 0x42
  | .noSlot => 0x43
  | .notReady => 0x44
  | .keyVoid => 0x45
  | .recordBad => 0x46
  | .badCredential => 0x47
  | .verifyFail => 0x48
  | .storeNotVoided => 0x49
  | .noDevice => 0x60
  | .nackData => 0x61
  | .stretchTimeout => 0x62
  | .lost => 0x63
  | .linkStuck => 0x64

/-- A LINK failure code as a result (R134). -/
def LinkFailure.result : LinkFailure → ResultCode
  | .noDevice => .noDevice
  | .nackData => .nackData
  | .stretchTimeout => .stretchTimeout
  | .lost => .lost
  | .linkStuck => .linkStuck

/-- Write phases (12.5). -/
def WritePhase.code : WritePhase → Byte
  | .notBegun => 0x01
  | .uncertain => 0x02
  | .verified => 0x03

/-- Yes or no, set or clear (12.2). -/
def boolCode (b : Bool) : Byte :=
  if b then 0x01 else 0x00

def MaskEntry.code : MaskEntry → Byte
  | .fill => 0x01
  | .stop => 0x02

def IdleMode.code : IdleMode → Byte
  | .off => 0x00
  | .lockOnce => 0x01
  | .noticeRepeat => 0x02

def IdleStep.code : IdleStep → Byte
  | .x1 => 0x01
  | .x64 => 0x02

def SectorSize.code : SectorSize → Byte
  | .b512 => 0x00
  | .b4096 => 0x01

def KeyStatus.code : KeyStatus → Byte
  | .none => 0x00
  | .live _ => 0x01
  | .erased => 0x02

def KeySize.code : KeySize → Byte
  | .k256 => 0x01
  | .k512 => 0x02

def SlotMode.code : SlotMode → Byte
  | .tweak => 0x01
  | .tagged => 0x02

def SlotState.code : SlotState → Byte
  | .empty => 0x00
  | .loading _ => 0x01
  | .ready _ _ => 0x02
  | .draining _ => 0x03

def LinkRate.code : LinkRate → Byte
  | .k400 => 0x01
  | .m1 => 0x02

def TickPeriod.code : TickPeriod → Byte
  | .s1over32 => 0x01
  | .s1over16 => 0x02
  | .s1over8 => 0x03
  | .s1over4 => 0x04
  | .s1over2 => 0x05
  | .s1 => 0x06
  | .s2 => 0x07
  | .s4 => 0x08

def PowerState.code : PowerState → Byte
  | .starting => 0x01
  | .run => 0x02
  | .quiescing => 0x03
  | .hold => 0x04
  | .failed => 0x05

def RandomState.code : RandomState → Byte
  | .warming => 0x01
  | .ready => 0x02
  | .failed => 0x03

/-- The data bytes of a sector size (R40). -/
def SectorSize.bytes : SectorSize → Nat
  | .b512 => 512
  | .b4096 => 4096

/-- The REFCLK periods of a tick period (R138). -/
def TickPeriod.refclkPeriods : TickPeriod → Nat
  | .s1over32 => 1024
  | .s1over16 => 2048
  | .s1over8 => 4096
  | .s1over4 => 8192
  | .s1over2 => 16384
  | .s1 => 32768
  | .s2 => 65536
  | .s4 => 131072

/-- The bit period of a link rate, in nanoseconds (R121). -/
def LinkRate.bitPeriodNs : LinkRate → Nat
  | .k400 => 2500
  | .m1 => 1000

/-- The time both lines must be high for the release watch to make the link FREE: 16 bit periods (R122). -/
def LinkRate.releaseWatchNs (r : LinkRate) : Nat :=
  16 * r.bitPeriodNs

/-! ## Items -/

/-- A one-byte item. -/
def item1 (c v : Byte) : Item :=
  { code := c, value := [v] }

/-- An item of n bytes holding a number. -/
def itemN (c : Byte) (n v : Nat) : Item :=
  { code := c, value := beBytes n v }

/-- The items of a policy, 0x10 to 0x1D (12.2). -/
def Policy.items (p : Policy) : List Item :=
  [itemN 0x10 1 p.tryLimit, item1 0x11 p.maskLocked.code, item1 0x12 p.maskKeyErased.code,
    item1 0x13 p.maskKeyAbsent.code, item1 0x14 p.maskTagMismatch.code, item1 0x15 p.fillByte,
    item1 0x16 (boolCode p.reportConditions), item1 0x17 (boolCode p.lockOnHold),
    item1 0x18 p.idleMode.code, itemN 0x19 2 p.idleCount, item1 0x1A p.idleStep.code,
    item1 0x1B (boolCode p.forgetOnIdle), itemN 0x1C 6 p.usageLimit,
    item1 0x1D (boolCode p.stopAtLimit)]

/-! ## Key records (12.3) -/

/-- The first 84 bytes of a record: header, salt, wrapped key; the record tag is over them (R91). -/
def coveredBytes (r : KeyRecord) : Bytes :=
  [r.marker, r.keySize, r.mode, r.handleEcho] ++ beBytes 16 r.salt.toNat ++ beBytes 64 r.wrapped.toNat

/-- The 100 bytes of a record. -/
def recordBytes (r : KeyRecord) : Bytes :=
  coveredBytes r ++ beBytes 16 r.tag.toNat

/-- The record that 100 bytes spell: recordBytes read backwards. -/
def recordOfBytes (bs : Bytes) : KeyRecord :=
  { marker := byteAt 0 bs, keySize := byteAt 1 bs, mode := byteAt 2 bs, handleEcho := byteAt 3 bs
    salt := BitVec.ofNat 128 (fieldAt 4 16 bs), wrapped := BitVec.ofNat 512 (fieldAt 20 64 bs)
    tag := BitVec.ofNat 128 (fieldAt 84 16 bs) }

/-- The VOID record: 100 zero bytes (12.3). -/
def voidRecord : KeyRecord :=
  { marker := 0, keySize := 0, mode := 0, handleEcho := 0, salt := 0, wrapped := 0, tag := 0 }

/-! ## Outbound messages, as bytes (12.1, 12.2; R165) -/

/-- The code in a Closer's condition or reason field; 0x00 absent. -/
def causeCode : Option CloserCause → Byte
  | none => 0x00
  | some (.condition c) => c.code
  | some (.cut r) => r.code

/-- A Job Closer, 14 bytes. -/
def Closer.bytes (c : Closer) : Bytes :=
  [0x22, c.tag, c.outcome.code, causeCode c.cause,
      match c.extent with
      | some e => BitVec.ofNat 8 e.val
      | none => 0xFF,
      0x00]
    ++ beBytes 2 c.emitted ++ beBytes 2 c.substituted ++ beBytes 2 (c.faultIndex.getD 0xFFFF)
    ++ [0x00, 0x00]

/-- A Management Answer. -/
def Answer.bytes (a : Answer) : Bytes :=
  [0x23, a.code, a.seq, a.result.code] ++ beBytes 2 (encodeItems a.items).length
    ++ encodeItems a.items

/-- A message of the outbound control channel. -/
def ControlMsg.bytes : ControlMsg → Bytes
  | .closer c => c.bytes
  | .answer a => a.bytes

/-- A Sector Out: flags bit 0 for the trailer, bit 1 for the fill marking. -/
def SectorOutMsg.bytes (m : SectorOutMsg) : Bytes :=
  [0x21, BitVec.ofNat 8 m.tag.val,
      (if m.trailer.isSome then 0x01 else 0x00) ||| (if m.fill then 0x02 else 0x00),
      if m.data.length = 512 then 0x00 else 0x01,
      BitVec.ofNat 8 m.index, 0x00]
    ++ m.data
    ++ match m.trailer with
      | some t => beBytes 16 t.toNat
      | none => []

end Sys2Proof.Machine
end

