-- ==== Sys2Proof/Machine/Operands.lean ====
section
/-! DEFINITION. The operand forms of the commands: the fields of a Job Opener and of a Sector In (R24,
R164), and the targets and items of the Management Requests with their ranges (12.2, R165). Each
reader answers none where the rule that owns the field says FORMAT. -/

namespace Sys2Proof.Machine

/-! ## Job messages -/

/-- A Job Opener whose fields are all in range (R24). -/
structure Opener where
  tag : TagId
  direction : Direction
  ns : NamespaceId
  firstLba : Nat
  count : Nat
  deriving DecidableEq, Repr

/-- The direction codes (12.1). -/
def directionOf (b : Byte) : Option Direction :=
  if b = 0x01 then some .encipher else if b = 0x02 then some .decipher else none

/-- A number below a bound as an index. -/
def index? (n v : Nat) : Option (Fin n) :=
  if h : v < n then some ⟨v, h⟩ else none

/-- Admission check 1 (R24, R164): the opener's fields if every one of them is in range and its header is
not rejected. -/
def openerFields? (m : OpenerMsg) : Option Opener :=
  if m.length ≠ 12 ∨ m.reserved ≠ 0 then none
  else
    match index? 48 m.tag.toNat, directionOf m.direction, index? 4 m.ns.toNat with
    | some t, some d, some n =>
      if 1 ≤ m.count.toNat ∧ m.count.toNat ≤ 256 then
        some { tag := t, direction := d, ns := n, firstLba := m.firstLba.toNat,
               count := m.count.toNat }
      else none
    | _, _, _ => none

/-- The data length a length code stands for (12.1). -/
def lengthOf (b : Byte) : Option SectorSize :=
  if b = 0x00 then some .b512 else if b = 0x01 then some .b4096 else none

/-- A Sector In whose header is not rejected (R164): its length code, its data and its trailer. -/
def sectorInBody? (m : SectorInMsg) : Option (SectorSize × Bytes × Option SectorTag) :=
  if m.reserved4 ≠ 0 ∨ m.reserved5 ≠ 0 ∨ 2 ≤ m.flags.toNat then none
  else
    match lengthOf m.lengthCode with
    | none => none
    | some size =>
      let data := m.payload.take size.bytes
      let rest := m.payload.drop size.bytes
      if data.length ≠ size.bytes then none
      else if m.flags = 0x01 then
        if rest.length = 16 then some (size, data, some (BitVec.ofNat 128 (beNat rest))) else none
      else if rest.length = 0 then some (size, data, none)
      else none

/-! ## Items of requests -/

/-- The sizes of the items requests carry (12.2): a range of lengths, and whether the length must be even. -/
def itemSizeOk (code len : Nat) : Bool :=
  if code = 0x02 ∨ code = 0x1C then len == 6
  else if code = 0x05 ∨ code = 0x06 then len == 5
  else if code = 0x19 then len == 2
  else if code = 0x20 ∨ code = 0x21 ∨ code = 0x22 then len == 32
  else if code = 0x40 then decide (1 ≤ len ∧ len ≤ 13)
  else if code = 0x41 then decide (2 ≤ len ∧ len ≤ 26 ∧ len % 2 = 0)
  else len == 1

/-- The codes of a request's items, in the order received. -/
def itemCodes (r : Request) : List Nat :=
  r.items.map fun i => i.code.toNat

/-- The items stand in ascending order of code (12.2). -/
def ascending : List Nat → Bool
  | [] => true
  | [_] => true
  | a :: b :: rest => decide (a < b) && ascending (b :: rest)

/-- A request's items against the table of 12.2 and R165: every code is one the request requires or may
carry, none is given twice, every required one is there, every length is its field's size. Whether
items out of ascending order are refused is open (log 16). -/
def itemsOk (required optional : List Nat) (r : Request) : Bool :=
  (itemCodes r).all (fun c => (required ++ optional).contains c)
    && decide (itemCodes r).Nodup
    && required.all (fun c => (itemCodes r).contains c)
    && r.items.all (fun i => itemSizeOk i.code.toNat i.value.length)
    && (ascending (itemCodes r) || !Config.refuseOutOfOrder)

/-- The value bytes of an item, if the request carries it. -/
def valueOf (r : Request) (c : Nat) : Option Bytes :=
  (r.items.find? fun i => i.code.toNat == c).map Item.value

/-- A required field, read in its range. -/
def need {α : Type} (r : Request) (c : Nat) (f : Nat → Option α) : Option α :=
  (valueOf r c).bind fun v => f (beNat v)

/-- A field that may be carried: none where it is carried out of its range, some none where it is not
carried. -/
def carried {α : Type} (r : Request) (c : Nat) (f : Nat → Option α) : Option (Option α) :=
  match valueOf r c with
  | none => some none
  | some v => (f (beNat v)).map some

/-- The target of a request that uses none is 0xFF (12.2, log 17). -/
def noTarget (r : Request) : Bool :=
  r.target == 0xFF

/-- A number in a range. -/
def inRange (lo hi v : Nat) : Option Nat :=
  if lo ≤ v ∧ v ≤ hi then some v else none

def yesNo (v : Nat) : Option Bool :=
  if v = 0 then some false else if v = 1 then some true else none

def maskOf (v : Nat) : Option MaskEntry :=
  if v = 1 then some .fill else if v = 2 then some .stop else none

def idleModeOf (v : Nat) : Option IdleMode :=
  if v = 0 then some .off else if v = 1 then some .lockOnce
  else if v = 2 then some .noticeRepeat else none

def idleStepOf (v : Nat) : Option IdleStep :=
  if v = 1 then some .x1 else if v = 2 then some .x64 else none

def sectorSizeOf (v : Nat) : Option SectorSize :=
  if v = 0 then some .b512 else if v = 1 then some .b4096 else none

def keySizeOf (v : Nat) : Option KeySize :=
  if v = 1 then some .k256 else if v = 2 then some .k512 else none

def slotModeOf (v : Nat) : Option SlotMode :=
  if v = 1 then some .tweak else if v = 2 then some .tagged else none

/-- The directions item; none named (0x00) is FORMAT in every rule that reads it (R94, R100, R115). -/
def directionsOf (v : Nat) : Option Directions :=
  if v = 1 then some { read := true, write := false }
  else if v = 2 then some { read := false, write := true }
  else if v = 3 then some { read := true, write := true }
  else none

/-- The mode of LOCK or ERASE: whether it is CUT. -/
def cutModeOf (v : Nat) : Option Bool :=
  if v = 1 then some false else if v = 2 then some true else none

def rateOf (v : Nat) : Option LinkRate :=
  if v = 1 then some .k400 else if v = 2 then some .m1 else none

def tickPeriodOf (v : Nat) : Option TickPeriod :=
  if v = 1 then some .s1over32 else if v = 2 then some .s1over16
  else if v = 3 then some .s1over8 else if v = 4 then some .s1over4
  else if v = 5 then some .s1over2 else if v = 6 then some .s1
  else if v = 7 then some .s2 else if v = 8 then some .s4 else none

def flagOf (b : Byte) : Option Flag :=
  match b.toNat with
  | 1 => some .coldStart
  | 2 => some .selfCheckFail
  | 3 => some .randomFail
  | 4 => some .stray
  | 5 => some .overrun
  | 6 => some .holdCut
  | 7 => some .idleLock
  | 8 => some .idleNotice
  | 9 => some .keyWorn
  | 10 => some .barred
  | 11 => some .storeStale
  | 12 => some .linkFail
  | 13 => some .jobFault
  | _ => none

/-! ## The operands of each request -/

/-- The largest usage limit and counter value (3.2, R69). -/
def maxUsage : Nat := 2 ^ 48 - 1

/-- The codes of the policy items. -/
def policyCodes : List Nat :=
  [0x10, 0x11, 0x12, 0x13, 0x14, 0x15, 0x16, 0x17, 0x18, 0x19, 0x1A, 0x1B, 0x1C, 0x1D]

/-- The policy fields a request carries, each in its range (R48). -/
def policyUpdate? (r : Request) : Option PolicyUpdate := do
  let tryLimit ← carried r 0x10 (inRange 1 15)
  let maskLocked ← carried r 0x11 maskOf
  let maskKeyErased ← carried r 0x12 maskOf
  let maskKeyAbsent ← carried r 0x13 maskOf
  let maskTagMismatch ← carried r 0x14 maskOf
  let fillByte ← carried r 0x15 fun v => some (BitVec.ofNat 8 v)
  let reportConditions ← carried r 0x16 yesNo
  let lockOnHold ← carried r 0x17 yesNo
  let idleMode ← carried r 0x18 idleModeOf
  let idleCount ← carried r 0x19 (inRange 1 4095)
  let idleStep ← carried r 0x1A idleStepOf
  let forgetOnIdle ← carried r 0x1B yesNo
  let usageLimit ← carried r 0x1C (inRange 0 maxUsage)
  let stopAtLimit ← carried r 0x1D yesNo
  return { tryLimit, maskLocked, maskKeyErased, maskKeyAbsent, maskTagMismatch, fillByte,
           reportConditions, lockOnHold, idleMode, idleCount, idleStep, forgetOnIdle,
           usageLimit, stopAtLimit }

/-- A request with no target and no items (IDENTIFY, READ EVENTS). -/
def bare (r : Request) : Bool :=
  noTarget r && itemsOk [] [] r

structure NamespaceArgs where
  ns : NamespaceId
  size : Nat
  sectorSize : SectorSize
  handle : Handle
  deriving DecidableEq, Repr

/-- R41, check 1. -/
def namespaceArgs? (r : Request) : Option NamespaceArgs := do
  guard (itemsOk [0x02, 0x03, 0x04] [] r)
  let ns ← index? 4 r.target.toNat
  let size ← need r 0x02 (inRange 0 (2 ^ 40))
  let sectorSize ← need r 0x03 sectorSizeOf
  let handle ← need r 0x04 (index? 64)
  return { ns, size, sectorSize, handle }

structure DefineArgs where
  extent : ExtentId
  ns : NamespaceId
  first : Nat
  last : Nat
  handle : Handle
  policy : PolicyUpdate
  deriving DecidableEq, Repr

/-- R51, check 1. -/
def defineArgs? (r : Request) : Option DefineArgs := do
  guard (itemsOk [0x01, 0x04, 0x05, 0x06] policyCodes r)
  let extent ← index? 24 r.target.toNat
  let ns ← need r 0x01 (index? 4)
  let first ← need r 0x05 some
  let last ← need r 0x06 some
  let handle ← need r 0x04 (index? 64)
  let policy ← policyUpdate? r
  return { extent, ns, first, last, handle, policy }

/-- The extent of a request that carries nothing else (R53, R57). -/
def extentOnly? (r : Request) : Option ExtentId := do
  guard (itemsOk [] [] r)
  index? 24 r.target.toNat

/-- The slot of QUERY SLOT (R73). -/
def slotOnly? (r : Request) : Option SlotId := do
  guard (itemsOk [] [] r)
  index? 32 r.target.toNat

structure PolicyArgs where
  extent : ExtentId
  policy : PolicyUpdate
  deriving DecidableEq, Repr

/-- R55, check 1: at least one field is carried. -/
def policyArgs? (r : Request) : Option PolicyArgs := do
  guard (itemsOk [] policyCodes r && !r.items.isEmpty)
  let extent ← index? 24 r.target.toNat
  let policy ← policyUpdate? r
  return { extent, policy }

structure UnlockArgs where
  extent : ExtentId
  credential : Credential
  dirs : Directions
  deriving DecidableEq, Repr

/-- R94, check 1. -/
def unlockArgs? (r : Request) : Option UnlockArgs := do
  guard (itemsOk [0x20, 0x23] [] r)
  let extent ← index? 24 r.target.toNat
  let credential ← need r 0x20 fun v => some (BitVec.ofNat 256 v)
  let dirs ← need r 0x23 directionsOf
  return { extent, credential, dirs }

structure LockArgs where
  extent : ExtentId
  dirs : Directions
  forget : Bool
  cut : Bool
  deriving DecidableEq, Repr

/-- R100, check 1. -/
def lockArgs? (r : Request) : Option LockArgs := do
  guard (itemsOk [0x23, 0x24, 0x25] [] r)
  let extent ← index? 24 r.target.toNat
  let dirs ← need r 0x23 directionsOf
  let forget ← need r 0x24 yesNo
  let cut ← need r 0x25 cutModeOf
  return { extent, dirs, forget, cut }

structure RewrapArgs where
  extent : ExtentId
  old : Credential
  new : Credential
  deriving DecidableEq, Repr

/-- R103, check 1. -/
def rewrapArgs? (r : Request) : Option RewrapArgs := do
  guard (itemsOk [0x21, 0x22] [] r)
  let extent ← index? 24 r.target.toNat
  let old ← need r 0x21 fun v => some (BitVec.ofNat 256 v)
  let new ← need r 0x22 fun v => some (BitVec.ofNat 256 v)
  return { extent, old, new }

structure EraseArgs where
  extent : ExtentId
  cut : Bool
  deriving DecidableEq, Repr

/-- R108, check 1. -/
def eraseArgs? (r : Request) : Option EraseArgs := do
  guard (itemsOk [0x25] [] r)
  let extent ← index? 24 r.target.toNat
  let cut ← need r 0x25 cutModeOf
  return { extent, cut }

structure GenerateArgs where
  extent : ExtentId
  credential : Credential
  size : KeySize
  mode : SlotMode
  dirs : Directions
  deriving DecidableEq, Repr

/-- R115, check 1. -/
def generateArgs? (r : Request) : Option GenerateArgs := do
  guard (itemsOk [0x20, 0x23, 0x26, 0x27] [] r)
  let extent ← index? 24 r.target.toNat
  let credential ← need r 0x20 fun v => some (BitVec.ofNat 256 v)
  let dirs ← need r 0x23 directionsOf
  let size ← need r 0x26 keySizeOf
  let mode ← need r 0x27 slotModeOf
  return { extent, credential, size, mode, dirs }

structure LinkArgs where
  rate : Option LinkRate
  deviceAddress : Option Byte
  stretchLimit : Option Nat
  freeWaitLimit : Option Nat
  stallOnFull : Option Bool
  deriving DecidableEq, Repr

/-- The FORMAT checks of R136. -/
def linkArgs? (r : Request) : Option LinkArgs := do
  guard (noTarget r && itemsOk [] [0x30, 0x31, 0x32, 0x33, 0x34] r && !r.items.isEmpty)
  let rate ← carried r 0x30 rateOf
  let deviceAddress ← carried r 0x31 fun v => (inRange 0 0x7F v).map (BitVec.ofNat 8)
  let stretchLimit ← carried r 0x32 (inRange 1 64)
  let freeWaitLimit ← carried r 0x33 (inRange 10 250)
  let stallOnFull ← carried r 0x34 yesNo
  return { rate, deviceAddress, stretchLimit, freeWaitLimit, stallOnFull }

structure TickArgs where
  period : Option TickPeriod
  drainLimit : Option Nat
  deriving DecidableEq, Repr

/-- The FORMAT checks of R139. -/
def tickArgs? (r : Request) : Option TickArgs := do
  guard (noTarget r && itemsOk [] [0x38, 0x39] r && !r.items.isEmpty)
  let period ← carried r 0x38 tickPeriodOf
  let drainLimit ← carried r 0x39 (inRange 1 255)
  return { period, drainLimit }

/-- Every byte of a list read as a flag, if every one is one. -/
def flagsOf : Bytes → Option (List Flag)
  | [] => some []
  | b :: rest =>
    match flagOf b, flagsOf rest with
    | some f, some fs => some (f :: fs)
    | _, _ => none

/-- The FORMAT checks of R154. -/
def clearArgs? (r : Request) : Option (List Flag) := do
  guard (noTarget r && itemsOk [0x40] [] r)
  let bs ← valueOf r 0x40
  flagsOf bs

/-- Pairs of a flag code and its new enable (item 0x41). -/
def enablesOf : Bytes → Option (List (Flag × Bool))
  | [] => some []
  | [_] => none
  | b :: v :: rest =>
    match flagOf b, yesNo v.toNat, enablesOf rest with
    | some f, some e, some more => some ((f, e) :: more)
    | _, _, _ => none

/-- The FORMAT checks of R155: no flag is named twice. -/
def enableArgs? (r : Request) : Option (List (Flag × Bool)) := do
  guard (noTarget r && itemsOk [0x41] [] r)
  let bs ← valueOf r 0x41
  let pairs ← enablesOf bs
  guard (decide (pairs.map Prod.fst).Nodup)
  return pairs

end Sys2Proof.Machine
end

