-- ==== Sys2Proof/Machine/Flags.lean ====
section
/-! DEFINITION. The event flags and ATTN (10.5, R151, R152). Every rule that sets a flag sets it here,
and ATTN is brought up to date in the same rule. -/

namespace Sys2Proof.Machine

/-- The place of a flag in the table of 10.5; its code is one more (12.5). -/
def Flag.idx : Flag → Fin 13
  | .coldStart => 0
  | .selfCheckFail => 1
  | .randomFail => 2
  | .stray => 3
  | .overrun => 4
  | .holdCut => 5
  | .idleLock => 6
  | .idleNotice => 7
  | .keyWorn => 8
  | .barred => 9
  | .storeStale => 10
  | .linkFail => 11
  | .jobFault => 12

/-- A flag is SET, whatever its mark. -/
def EventFlag.isSet (f : EventFlag) : Bool :=
  match f.state with
  | .clear => false
  | .set _ => true

/-- A flag is SET with reported mark yes. -/
def EventFlag.isReported (f : EventFlag) : Bool :=
  match f.state with
  | .set true => true
  | _ => false

/-- The level ATTN is to have: some flag is SET and enabled, and the part is not inert (R152). -/
def attnLevel (s : State) : Bool :=
  s.powered && (List.finRange 13).any fun i => s.flags[i].isSet && s.flags[i].enable

/-- ATTN follows (R152). -/
def refreshAttn (s : State) : State :=
  { s with attn := attnLevel s }

/-- A flag becomes SET with reported mark no, whatever it was; its enable stays (R151). -/
def setFlag (f : Flag) (s : State) : State :=
  refreshAttn
    { s with flags := s.flags.set f.idx { state := .set false, enable := s.flags[f.idx].enable } }

/-- Every flag is rewritten by a function of its place. -/
def mapFlags (g : Fin 13 → EventFlag → EventFlag) (s : State) : State :=
  refreshAttn { s with flags := Vector.ofFn fun i => g i s.flags[i] }

/-- A flag set (12.2): bit (code - 1) for each flag that satisfies a test, in two bytes. -/
def flagSet (p : EventFlag → Bool) (s : State) : Nat :=
  ((List.finRange 13).map fun i => if p s.flags[i] then 2 ^ i.val else 0).sum

end Sys2Proof.Machine
end

