-- ==== Sys2Proof/Machine/Ops.lean ====
section
/-! DEFINITION. The named operations several commands share: the wrapper of a rule, the collections'
writers, idle timers (R140, R141), slots (R59 to R67), the taking and the ending of requests (R147 to
R149), the end of an ERASE (R110, R111) and the locking step of hold entry (R162). -/

namespace Sys2Proof.Machine

/-! ## Rules -/

/-- One rule: the part acts while it has power, and takes nothing while it is inert (R159). -/
def rule (f : State → State) (s : State) : Host.Outcome State Fault Refusal :=
  .next (if s.powered then f s else s)

/-! ## Emission (R17) -/

/-- A message leaves on the outbound control channel. -/
def emitControl (m : ControlMsg) (s : State) : State :=
  { s with outControl := s.outControl ++ [m] }

/-- A Sector Out leaves on the outbound data channel. -/
def emitSector (m : SectorOutMsg) (s : State) : State :=
  { s with outData := s.outData ++ [m] }

/-! ## Writers of the collections -/

def setJob (t : TagId) (j : Option Job) (s : State) : State :=
  { s with jobs := s.jobs.set t j }

def setBuffer (b : BufferId) (v : Buffer) (s : State) : State :=
  { s with buffers := s.buffers.set b v }

def setExtent (e : ExtentId) (x : Option Extent) (s : State) : State :=
  { s with extents := s.extents.set e x }

def setSlot (k : SlotId) (v : Slot) (s : State) : State :=
  { s with slots := s.slots.set k v }

def setPipe (p : PipeId) (v : Pipe) (s : State) : State :=
  { s with pipes := s.pipes.set p v }

def setTimer (e : ExtentId) (t : IdleTimer) (s : State) : State :=
  { s with timers := s.timers.set e t }

/-- A DEFINED record is rewritten; a FREE one stays FREE. -/
def updateExtent (e : ExtentId) (f : Extent → Extent) (s : State) : State :=
  setExtent e (s.extents[e].map f) s

/-- The Random Source is rewritten. -/
def setRandom (r : RandomSource) (s : State) : State :=
  { s with random := r }

/-- The working context is rewritten (R93). -/
def setContext (c : WorkingContext) (s : State) : State :=
  { s with context := c }

/-- The executing-request slot is rewritten (10.2). -/
def setExecuting (x : Option Executing) (s : State) : State :=
  { s with executing := x }

/-! ## The Job Table, read -/

/-- A job record names the extent. -/
def namesExtent (e : ExtentId) (j : Option Job) : Bool :=
  match j with
  | some j => decide (j.extent = e)
  | none => false

/-- The number of job records that name an extent (R57, R140). -/
def jobsNaming (e : ExtentId) (s : State) : Nat :=
  (List.finRange 48).countP fun t => namesExtent e s.jobs[t]

/-- The number of job records (R1). -/
def jobCount (s : State) : Nat :=
  (List.finRange 48).countP fun t => s.jobs[t].isSome

/-- The Job Table holds no record. -/
def tableEmpty (s : State) : Bool :=
  (List.finRange 48).all fun t => s.jobs[t].isNone

/-! ## Idle timers -/

/-- The full count of a policy (R48). -/
def fullCount (p : Policy) : Nat :=
  match p.idleStep with
  | .x1 => p.idleCount
  | .x64 => p.idleCount * 64

/-- A key status is LIVE. -/
def KeyStatus.isLive : KeyStatus → Bool
  | .live _ => true
  | _ => false

/-- The extent meets the arming conditions: LIVE, not both locks set, idle mode not OFF (R140). -/
def armed (x : Extent) : Bool :=
  x.key.isLive && !(x.readLock && x.writeLock) && decide (x.policy.idleMode ≠ .off)

/-- The timer of an extent judged under R140. A timer that stays COUNTING keeps its remaining count
unless the event restarts it (R141). -/
def judgedTimer (restart : Bool) (e : ExtentId) (s : State) : IdleTimer :=
  match s.extents[e] with
  | none => .disarmed
  | some x =>
    if armed x then
      if 0 < jobsNaming e s then .suspended
      else
        match restart, s.timers[e] with
        | false, .counting n => .counting n
        | _, _ => .counting (fullCount x.policy)
    else .disarmed

/-- The Timer Unit is told of a change to an extent (R141). -/
def judgeTimer (restart : Bool) (e : ExtentId) (s : State) : State :=
  setTimer e (judgedTimer restart e s) s

/-! ## Requests: their answers and their end -/

/-- A Management Answer leaves (R147). -/
def answer (n : RequestName) (seq : Byte) (result : ResultCode) (items : List Item) (s : State) :
    State :=
  emitControl (.answer { code := n.code, seq := seq, result := result, items := items }) s

/-- The executing request is answered, its slot becomes empty and the working context is zeroized, in
one rule (R93, R148). -/
def endRequest (n : RequestName) (seq : Byte) (result : ResultCode) (items : List Item)
    (s : State) : State :=
  setContext WorkingContext.empty (setExecuting none (answer n seq result items s))

/-- The store stale item as the record stands (R120). -/
def staleItem (e : ExtentId) (s : State) : Item :=
  item1 0x57 (boolCode ((s.extents[e].map Extent.storeStale).getD false))

/-- The write phase item. -/
def phaseItem (p : WritePhase) : Item :=
  item1 0x60 p.code

/-- The key status item as the record stands. -/
def keyStatusItem (e : ExtentId) (s : State) : Item :=
  item1 0x51 ((s.extents[e].map Extent.key).getD .none).code

/-- The lock items as the record stands. -/
def lockItems (e : ExtentId) (s : State) : List Item :=
  [item1 0x53 (boolCode ((s.extents[e].map Extent.readLock).getD false)),
    item1 0x54 (boolCode ((s.extents[e].map Extent.writeLock).getD false))]

/-- The slot number item of an extent that is LIVE; none otherwise. -/
def slotItems (e : ExtentId) (s : State) : List Item :=
  match s.extents[e].map Extent.key with
  | some (.live k) => [itemN 0x52 1 k.val]
  | _ => []

/-- The write facts as a write phase (R134, R106). -/
def WriteFacts.phase (f : WriteFacts) : WritePhase :=
  if f.verified then .verified else if f.writeBegun then .uncertain else .notBegun

/-- ERASE is answered in the rule that takes the second of its two ends, by its void write alone (R110,
R111, R120). -/
def answerErase (seq : Byte) (e : ExtentId) (w : WriteEnd) (s : State) : State :=
  match w.outcome with
  | .verified =>
    endRequest .erase seq .ok [keyStatusItem e s, staleItem e s, phaseItem w.facts.phase] s
  | .differs =>
    endRequest .erase seq .storeNotVoided
      [staleItem e s, phaseItem w.facts.phase, item1 0x61 ResultCode.verifyFail.code] s
  | .failed f =>
    endRequest .erase seq .storeNotVoided
      [staleItem e s, phaseItem w.facts.phase, item1 0x61 f.result.code] s

/-- The request slot takes a request's taking rule: R148 and R149 in order, then the request's own
rule. -/
def notAccepted : PowerState → Option ResultCode
  | .run => none
  | .starting => some .starting
  | .quiescing => some .holding
  | .hold => some .holding
  | .failed => some .failed

/-- The four requests accepted in every power state (R149). -/
def RequestName.alwaysAccepted : RequestName → Bool
  | .identify | .readEvents | .clearEvents | .setEventEnables => true
  | _ => false

/-- A request of a known name arrives (R148, R149); a request passed on is taken by its own rule. -/
def takeRequest (n : RequestName) (seq : Byte) (own : State → State) (s : State) : State :=
  if s.executing.isSome then answer n seq .busy [] s
  else if RequestName.alwaysAccepted n then own s
  else
    match notAccepted s.power with
    | some code => answer n seq code [] s
    | none => own s

/-! ## Key slots -/

/-- The lowest-numbered EMPTY slot, if any (R60). -/
def emptySlot? (s : State) : Option SlotId :=
  (List.finRange 32).find? fun k => decide (s.slots[k].state = .empty)

/-- A slot becomes EMPTY: its key material is zeroized and every field takes its EMPTY value (R67). -/
def emptySlot (k : SlotId) (s : State) : State :=
  setSlot k Slot.empty s

/-- A slot is allocated: LOADING, bound to the extent, its other fields at their EMPTY values (R60). -/
def allocate (k : SlotId) (e : ExtentId) (s : State) : State :=
  setSlot k { Slot.empty with state := .loading e } s

/-- Load success: slot and extent change together (R61). -/
def loadKey (k : SlotId) (e : ExtentId) (key : LoadedKey) (s : State) : State :=
  match s.extents[e] with
  | none => s
  | some x =>
    setExtent e (some { x with key := .live k })
      (setSlot k
        { state := .ready e key, pins := 0, usage := 0, limit := x.policy.usageLimit
          stopAtLimit := x.policy.stopAtLimit, worn := false } s)

/-- The causes of a release, by the key status they give (table of 4.3). -/
inductive ReleaseCause where
  | forget
  | erase
  deriving DecidableEq, Repr

def ReleaseCause.statusAfter : ReleaseCause → KeyStatus
  | .forget => .none
  | .erase => .erased

/-- The slot of a released extent: emptied without pins, DRAINING with them (R64). -/
def releaseSlot (k : SlotId) (s : State) : State :=
  match s.slots[k].state with
  | .ready _ key =>
    if s.slots[k].pins = 0 then emptySlot k s
    else setSlot k { s.slots[k] with state := .draining key } s
  | _ => s

/-- A release names an extent (R64). An extent that is not LIVE has no slot; ERASE still makes it
ERASED, and the other causes leave its key status. -/
def releaseExtent (c : ReleaseCause) (e : ExtentId) (s : State) : State :=
  match s.extents[e] with
  | none => s
  | some x =>
    match x.key, c with
    | .live k, _ => setExtent e (some { x with key := c.statusAfter }) (releaseSlot k s)
    | _, .erase => setExtent e (some { x with key := .erased }) s
    | _, .forget => s

/-- The end of a drain is reported to the executing ERASE that waits on it; if its void write has ended,
it is answered in the same rule (R67, R110). -/
def drainEnded (k : SlotId) (s : State) : State :=
  match s.executing with
  | some { seq, request := .erase e (some d) written } =>
    if d = k then
      match written with
      | some w => answerErase seq e w s
      | none => setExecuting (some { seq := seq, request := .erase e none none }) s
    else s
  | _ => s

/-- A closing job's pin is released (R65). -/
def unpin (k : SlotId) (s : State) : State :=
  let pins := s.slots[k].pins - 1
  match s.slots[k].state with
  | .draining _ =>
    if pins = 0 then drainEnded k (emptySlot k s)
    else setSlot k { s.slots[k] with pins := pins } s
  | _ => setSlot k { s.slots[k] with pins := pins } s

/-- An admitted CIPHER job pins its slot (R36, R68). -/
def pin (k : SlotId) (s : State) : State :=
  setSlot k { s.slots[k] with pins := s.slots[k].pins + 1 } s

/-- A completed pass is counted against its slot, and may make it worn (R69, R70). -/
def countUse (k : SlotId) (s : State) : State :=
  let v := s.slots[k]
  let usage := min (v.usage + 1) maxUsage
  if v.limit ≠ 0 ∧ usage = v.limit ∧ v.usage < usage ∧ v.worn = false then
    setFlag .keyWorn (setSlot k { v with usage := usage, worn := true } s)
  else setSlot k { v with usage := usage } s

/-! ## Hold entry's locking step (R162) -/

/-- An extent that asks for it is locked in both directions and released, and its timer re-judged; any
other is not touched. -/
def lockForHold (e : ExtentId) (s : State) : State :=
  match s.extents[e] with
  | none => s
  | some x =>
    if x.policy.lockOnHold then
      judgeTimer false e
        (releaseExtent .forget e (setExtent e (some { x with readLock := true, writeLock := true }) s))
    else s

/-- The locking step: timer stopped, extents locked, and the state that the HOLD level gives. -/
def lockingStep (s : State) : State :=
  let s := (List.finRange 24).foldl (fun s e => lockForHold e s) s
  { s with drainTimer := none, power := if s.holdLevel then .hold else .run }

/-- The locking step is taken at the first rule after which, in QUIESCING, the Job Table and the
executing-request slot are both empty. -/
def lockingStepIfDue (s : State) : State :=
  if s.power = .quiescing ∧ tableEmpty s = true ∧ s.executing.isNone = true then lockingStep s
  else s

/-- A rule that can end a job or the executing request, and so be followed by the locking step (the
rules that R162 names). -/
def closingRule (f : State → State) (s : State) : Host.Outcome State Fault Refusal :=
  rule (fun s => lockingStepIfDue (f s)) s

end Sys2Proof.Machine
end

