-- ==== Sys2Proof/Machine/Jobs.lean ====
section
/-! DEFINITION. The Job Unit's shared operations: buffers and the withheld Sector In (R5, R11, R12),
ENDING (R3, R18), cuts (R19), closing and the Job Closer (R20, R21). -/

namespace Sys2Proof.Machine

/-! ## Buffers -/

/-- A free buffer, if there is one: the lowest-numbered, since which one is taken is not visible (R4,
log 12). -/
def freeBuffer? (s : State) : Option BufferId :=
  (List.finRange 96).find? fun b => decide (s.buffers[b].use = .free)

/-- A sector of a job takes a buffer and joins the Ready Sector List with the index next to receive holds
(R11). -/
def listSector (t : TagId) (data : Bytes) (stored : Option SectorTag) (b : BufferId) (s : State) :
    State :=
  match s.jobs[t] with
  | none => setBuffer b Buffer.empty s
  | some j =>
    setBuffer b { use := .listed, data := data, tag := stored }
      (setJob t (some { j with nextToReceive := j.nextToReceive + 1 })
        { s with ready := s.ready ++ [{ tag := t, index := j.nextToReceive, buffer := b }] })

/-- A buffer becomes FREE; a withheld Sector In takes it in the same rule (R5). -/
def releaseBuffer (b : BufferId) (s : State) : State :=
  match s.withheld with
  | none => setBuffer b Buffer.empty s
  | some w => listSector w.tag w.data w.stored b { s with withheld := none }

/-- Buffers become FREE one after the other. -/
def releaseBuffers (bs : List BufferId) (s : State) : State :=
  bs.foldl (fun s b => releaseBuffer b s) s

/-! ## ENDING (R18) -/

/-- A Ready Sector List entry of a job at or above an index. -/
def ReadyEntry.dropped (t : TagId) (k : Nat) (r : ReadyEntry) : Bool :=
  decide (r.tag = t) && decide (k ≤ r.index)

/-- The withheld Sector In of a job that becomes ENDING is accepted and discarded (R12). -/
def discardWithheld (t : TagId) (w : Option Withheld) : Option Withheld :=
  match w with
  | some w => if w.tag = t then none else some w
  | none => none

/-- A job becomes ENDING at an index with a reason, or has its fault index lowered to it: its listed and
held sectors from there on are dropped and their buffers freed (R18). -/
def endJob (t : TagId) (k : Nat) (why : EndReason) (s : State) : State :=
  match s.jobs[t] with
  | none => s
  | some j =>
    let listed := (s.ready.filter (ReadyEntry.dropped t k)).map ReadyEntry.buffer
    let held := (j.hold.filter fun h => decide (k ≤ h.index)).map HeldResult.buffer
    releaseBuffers (listed ++ held)
      (setJob t
        (some { j with state := .ending k why, hold := j.hold.filter fun h => decide (h.index < k) })
        { s with ready := s.ready.filter fun r => !ReadyEntry.dropped t k r
                 withheld := discardWithheld t s.withheld })

/-- A condition stops a job at an index, as R3 settles it for a job already ENDING. -/
def stopJob (t : TagId) (k : Nat) (c : StopCondition) (s : State) : State :=
  match s.jobs[t].map Job.state with
  | none => s
  | some .active => endJob t k (.stop c) s
  | some (.ending f (.stop _)) => if k < f then endJob t k (.stop c) s else s
  | some (.ending _ (.cut _)) => s

/-- A job is cut at its next to emit; the first cut reason stands (R3, R19), at the drain expiry too, whose last words
in R161 would give every job's Closer CUT_HOLD (DEDUCED, log 38). -/
def cutJob (t : TagId) (r : CutReason) (s : State) : State :=
  match s.jobs[t] with
  | none => s
  | some j =>
    match j.state with
    | .ending _ (.cut _) => s
    | _ => endJob t j.nextToEmit (.cut r) s

/-! ## Closing (R20, R21) -/

/-- A stop condition as a condition. -/
def StopCondition.condition : StopCondition → Condition
  | .tagMismatch => .tagMismatch
  | .overrun => .overrun
  | .format => .format

/-- A fill condition as a condition. -/
def FillCondition.condition : FillCondition → Condition
  | .locked => .locked
  | .keyErased => .keyErased
  | .keyAbsent => .keyAbsent

/-- The Closer of a job that closes, row by row of the table of R21. -/
def closerOf (t : TagId) (j : Job) : Closer :=
  let tag := BitVec.ofNat 8 t.val
  match j.state, j.mode with
  | .active, .cipher _ =>
    { tag, outcome := .done
      cause := if j.substituted = 0 then none else some (.condition .tagMismatch)
      extent := some j.extent, emitted := j.count, substituted := j.substituted
      faultIndex := none }
  | .active, .fill c =>
    { tag, outcome := .done, cause := some (.condition c.condition)
      extent := some j.extent, emitted := j.count, substituted := j.count
      faultIndex := none }
  | .ending k (.stop c), _ =>
    { tag, outcome := .stopped, cause := some (.condition c.condition)
      extent := some j.extent, emitted := k, substituted := j.substituted
      faultIndex := some k }
  | .ending k (.cut r), _ =>
    { tag, outcome := .aborted, cause := some (.cut r)
      extent := some j.extent, emitted := k, substituted := j.substituted
      faultIndex := some k }

/-- An extent reports conditions. -/
def reports (e : Option ExtentId) (s : State) : Bool :=
  match e with
  | none => false
  | some e =>
    match s.extents[e] with
    | none => false
    | some x => x.policy.reportConditions

/-- The cause is a condition. -/
def CloserCause.isCondition : Option CloserCause → Bool
  | some (.condition _) => true
  | _ => false

/-- A Closer leaves; one that carries a condition for an extent that reports conditions sets JOB_FAULT in
the same rule (R21, R34). -/
def emitCloser (c : Closer) (s : State) : State :=
  if CloserCause.isCondition c.cause && reports c.extent s then
    setFlag .jobFault (emitControl (.closer c) s)
  else emitControl (.closer c) s

/-- The slot a job pins, if any. -/
def JobMode.slot? : JobMode → Option SlotId
  | .cipher k => some k
  | .fill _ => none

/-- A job's pin, if it has one, is released. -/
def unpinJob (m : JobMode) (s : State) : State :=
  match m with
  | .cipher k => unpin k s
  | .fill _ => s

/-- A job closes: Closer, unpin, removal of the record, and word to the Timer Unit when no record names
the extent any longer (R20, in its order). -/
def closeJob (t : TagId) (j : Job) (s : State) : State :=
  let s := setJob t none (unpinJob j.mode (emitCloser (closerOf t j) s))
  if jobsNaming j.extent s = 0 then judgeTimer true j.extent s else s

/-- Whether a job closes (R20). -/
def Job.finished (j : Job) : Bool :=
  decide (j.sectorsInPipes = 0) &&
    match j.state with
    | .active => decide (j.nextToEmit = j.count)
    | .ending k _ => decide (j.nextToEmit = k)

/-- A job is examined for closing (R20). -/
def closeIfDone (t : TagId) (s : State) : State :=
  match s.jobs[t] with
  | none => s
  | some j => if j.finished then closeJob t j s else s

/-- Each job that a test names is cut, and closes in this rule if no sector of it is in a pipe (R19).
The jobs are taken by ascending tag, each with its cut and its closing before the next. A withheld Sector In of a
named job is thus discarded at that job's turn, or takes a buffer that a named job of a lower tag has freed and is
dropped under R18 at that turn: R12 allows both orders (DESIGN CHOICE, log 13). -/
def cutJobs (named : Job → Bool) (r : CutReason) (s : State) : State :=
  (List.finRange 48).foldl
    (fun s t =>
      match s.jobs[t] with
      | none => s
      | some j => if named j then closeIfDone t (cutJob t r s) else s) s

/-- A well-formed sector dropped for want of a buffer: OVERRUN is set and the job stops at its next to
receive (R13). -/
def overrun (t : TagId) (s : State) : State :=
  match s.jobs[t] with
  | none => s
  | some j => closeIfDone t (stopJob t j.nextToReceive .overrun (setFlag .overrun s))

end Sys2Proof.Machine
end

