-- ==== Sys2Proof/Machine/Admission.lean ====
section
/-! DEFINITION. JOB_OPENER: admission's twelve checks in their order (R23 to R33), refusal (R34), and
admission in FILL and in CIPHER mode (R35, R36), with the lookup of a span (R49, R50). -/

namespace Sys2Proof.Machine

/-! ## Lookup (R49, R50) -/

/-- A defined extent of a namespace, by its span. -/
def spanIn (n : NamespaceId) (x : Option Extent) : Option Span :=
  match x with
  | some x => if x.ns = n then x.span else none
  | none => none

/-- An LBA lies in a span. -/
def Span.has (p : Span) (lba : Nat) : Bool :=
  decide (p.first ≤ lba) && decide (lba ≤ p.last)

/-- Two spans share an LBA: neither ends before the other begins (R51). -/
def Span.meets (p : Span) (first last : Nat) : Bool :=
  decide (p.first ≤ last) && decide (first ≤ p.last)

/-- The global extent of a namespace: the record of the same number (R43). -/
def globalOf (n : NamespaceId) : ExtentId :=
  ⟨n.val, by omega⟩

/-- The defined extent of a namespace that contains an LBA, if any. -/
def definedAt (n : NamespaceId) (lba : Nat) (s : State) : Option ExtentId :=
  (List.finRange 24).find? fun e =>
    match spanIn n s.extents[e] with
    | some p => p.has lba
    | none => false

/-- The extent an LBA belongs to (R49). -/
def extentAt (n : NamespaceId) (lba : Nat) (s : State) : ExtentId :=
  (definedAt n lba s).getD (globalOf n)

/-- The span from a first to a last LBA lies within the extent of its first LBA (R50, steps 2 and 3). -/
def spanWithin (n : NamespaceId) (first last : Nat) (s : State) : Bool :=
  match definedAt n first s with
  | some e =>
    match spanIn n s.extents[e] with
    | some p => decide (last ≤ p.last)
    | none => false
  | none =>
    (List.finRange 24).all fun e =>
      match spanIn n s.extents[e] with
      | some p => !(decide (first ≤ p.first) && decide (p.first ≤ last))
      | none => true

/-! ## The checks -/

/-- What admission decides. -/
inductive Admission where
  | refuse (c : Condition) (e : Option ExtentId)
  | fill (t : TagId) (o : Opener) (e : ExtentId) (c : FillCondition)
  | cipher (t : TagId) (o : Opener) (e : ExtentId) (k : SlotId)
  deriving DecidableEq, Repr

/-- The condition of a power state other than RUN (R26). -/
def PowerState.refusal : PowerState → Option Condition
  | .run => none
  | .starting => some .starting
  | .quiescing => some .holding
  | .hold => some .holding
  | .failed => some .failed

/-- The fault mask entry of a fill condition (2.5). -/
def Policy.mask (p : Policy) : FillCondition → MaskEntry
  | .locked => p.maskLocked
  | .keyErased => p.maskKeyErased
  | .keyAbsent => p.maskKeyAbsent

/-- Check 9, 10 or 11 is the first to apply (R33). -/
def masked (o : Opener) (e : ExtentId) (x : Extent) (c : FillCondition) : Admission :=
  match o.direction, x.policy.mask c with
  | .decipher, .fill => .fill o.tag o e c
  | _, _ => .refuse c.condition (some e)

/-- The lock of a direction (R30). -/
def Extent.lockOf (x : Extent) : Direction → Bool
  | .encipher => x.writeLock
  | .decipher => x.readLock

/-- Checks 8 to 12 on the extent's record (R29 to R32). -/
def judgeExtent (o : Opener) (e : ExtentId) (x : Extent) (s : State) : Admission :=
  if x.barred then .refuse .barred (some e)
  else if x.lockOf o.direction then masked o e x .locked
  else
    match x.key with
    | .erased => masked o e x .keyErased
    | .none => masked o e x .keyAbsent
    | .live k =>
      if s.slots[k].worn && s.slots[k].stopAtLimit then .refuse .keyWorn (some e)
      else .cipher o.tag o e k

/-- Checks 5 to 7 on the namespace and the span (R27, R28), then the extent. The record of the extent
found is DEFINED whenever its namespace is present (R49); the last arm is not reached (log 26). -/
def judgeSpan (o : Opener) (s : State) : Admission :=
  let last := o.firstLba + o.count - 1
  if s.namespaces[o.ns].size = 0 then .refuse .noNamespace none
  else if s.namespaces[o.ns].size ≤ last then .refuse .beyondEnd none
  else
    let e := extentAt o.ns o.firstLba s
    if spanWithin o.ns o.firstLba last s then
      match s.extents[e] with
      | some x => judgeExtent o e x s
      | none => .refuse .noNamespace none
    else .refuse .straddle (some e)

/-- Admission (R23). -/
def admission (m : OpenerMsg) (s : State) : Admission :=
  match openerFields? m with
  | none => .refuse .format none
  | some o =>
    if s.jobs[o.tag].isSome then .refuse .tagInUse none
    else if jobCount s = 48 then .refuse .tableFull none
    else
      match s.power.refusal with
      | some c => .refuse c none
      | none => judgeSpan o s

/-! ## Carrying it out -/

/-- A new job record (R2). -/
def newJob (o : Opener) (e : ExtentId) (m : JobMode) : Job :=
  { direction := o.direction, ns := o.ns, firstLba := o.firstLba, count := o.count, extent := e
    mode := m, state := .active, nextToReceive := 0, nextToEmit := 0, sectorsInPipes := 0
    hold := [], substituted := 0 }

/-- The Closer of a refusal (R34); its tag is the opener's, as received. -/
def refusalCloser (tag : Byte) (c : Condition) (e : Option ExtentId) : Closer :=
  { tag := tag, outcome := .refused, cause := some (.condition c), extent := e, emitted := 0
    substituted := 0, faultIndex := none }

/-- A Job Opener is taken whole (R23, R34 to R36). -/
def takeOpener (m : OpenerMsg) (s : State) : State :=
  match admission m s with
  | .refuse c e => emitCloser (refusalCloser m.tag c e) s
  | .fill t o e c => judgeTimer false e (setJob t (some (newJob o e (.fill c))) s)
  | .cipher t o e k => judgeTimer false e (pin k (setJob t (some (newJob o e (.cipher k))) s))

/-- JOB_OPENER. -/
def execJobOpener (m : OpenerMsg) (s : State) : Host.Outcome State Fault Refusal :=
  rule (takeOpener m) s

end Sys2Proof.Machine
end

