-- ==== Sys2Proof/Machine/ExtentTable.lean ====
section
/-! DEFINITION. The five requests of The Extent Table: SET_NAMESPACE (R41, R42), DEFINE_EXTENT (R51, R52),
RETIRE_EXTENT (R53, R54), SET_POLICY (R55, R56, R71) and QUERY_EXTENT (R57). -/

namespace Sys2Proof.Machine

/-! ## Starting values (R44) -/

/-- The default policy. -/
def Policy.default : Policy :=
  { tryLimit := 5, maskLocked := .stop, maskKeyErased := .stop, maskKeyAbsent := .stop
    maskTagMismatch := .stop, fillByte := 0x00, reportConditions := false, lockOnHold := true
    idleMode := .off, idleCount := 300, idleStep := .x1, forgetOnIdle := false, usageLimit := 0
    stopAtLimit := false }

/-- Carried fields replace a policy's (R44, R56). -/
def Policy.carry (p : Policy) (u : PolicyUpdate) : Policy :=
  { tryLimit := u.tryLimit.getD p.tryLimit
    maskLocked := u.maskLocked.getD p.maskLocked
    maskKeyErased := u.maskKeyErased.getD p.maskKeyErased
    maskKeyAbsent := u.maskKeyAbsent.getD p.maskKeyAbsent
    maskTagMismatch := u.maskTagMismatch.getD p.maskTagMismatch
    fillByte := u.fillByte.getD p.fillByte
    reportConditions := u.reportConditions.getD p.reportConditions
    lockOnHold := u.lockOnHold.getD p.lockOnHold
    idleMode := u.idleMode.getD p.idleMode
    idleCount := u.idleCount.getD p.idleCount
    idleStep := u.idleStep.getD p.idleStep
    forgetOnIdle := u.forgetOnIdle.getD p.forgetOnIdle
    usageLimit := u.usageLimit.getD p.usageLimit
    stopAtLimit := u.stopAtLimit.getD p.stopAtLimit }

/-- A record that becomes DEFINED. -/
def newExtent (n : NamespaceId) (span : Option Span) (h : Handle) (p : Policy) : Extent :=
  { ns := n, span := span, handle := h, key := .none, readLock := true, writeLock := true
    barred := false, tryCount := 0, policy := p, storeStale := false }

/-! ## SET NAMESPACE -/

/-- Some job record is of the namespace (R41, check 2). -/
def jobOfNamespace (n : NamespaceId) (s : State) : Bool :=
  (List.finRange 48).any fun t =>
    match s.jobs[t] with
    | some j => decide (j.ns = n)
    | none => false

/-- Some record from 4 to 23 is DEFINED in the namespace (R41, check 3). -/
def definedInNamespace (n : NamespaceId) (s : State) : Bool :=
  (List.finRange 24).any fun e =>
    decide (4 ≤ e.val) &&
      match s.extents[e] with
      | some x => decide (x.ns = n)
      | none => false

/-- The extent is LIVE. -/
def liveExtent (e : ExtentId) (s : State) : Bool :=
  match s.extents[e] with
  | some x => x.key.isLive
  | none => false

/-- The first check of R41 that applies, after check 1. -/
def namespaceRefusal (a : NamespaceArgs) (s : State) : Option ResultCode :=
  if jobOfNamespace a.ns s then some .nsBusy
  else if definedInNamespace a.ns s then some .nsBusy
  else if a.size = 0 ∧ liveExtent (globalOf a.ns) s = true then some .keyPresent
  else none

/-- The global extent after a successful SET NAMESPACE (table of R42). -/
def globalAfter (a : NamespaceArgs) (s : State) : Option Extent :=
  if a.size = 0 then none
  else if s.namespaces[a.ns].size = 0 then some (newExtent a.ns none a.handle Policy.default)
  else
    match s.extents[globalOf a.ns] with
    | none => none
    | some x => some (if x.key = .none then { x with handle := a.handle } else x)

/-- The store handle item of the global extent as it then stands; a FREE record holds none (R42). -/
def handleItems (e : ExtentId) (s : State) : List Item :=
  match s.extents[e] with
  | some x => [itemN 0x04 1 x.handle.val]
  | none => []

/-- The entry and the global extent are written. The timer of the global extent is disarmed where it
begins or becomes FREE, and stays as it was on a resize (R42, R141). -/
def applyNamespace (a : NamespaceArgs) (s : State) : State :=
  let before := s.namespaces[a.ns].size
  let s' := setExtent (globalOf a.ns) (globalAfter a s)
    { s with namespaces := s.namespaces.set a.ns { size := a.size, sectorSize := a.sectorSize } }
  if before = 0 ∨ a.size = 0 then setTimer (globalOf a.ns) .disarmed s' else s'

/-- SET NAMESPACE's own rule. -/
def setNamespace (r : Request) (s : State) : State :=
  match namespaceArgs? r with
  | none => answer .setNamespace r.seq .format [] s
  | some a =>
    match namespaceRefusal a s with
    | some code => answer .setNamespace r.seq code [] s
    | none =>
      let s := applyNamespace a s
      answer .setNamespace r.seq .ok (handleItems (globalOf a.ns) s) s

/-- SET_NAMESPACE. -/
def execSetNamespace (r : Request) (s : State) : Host.Outcome State Fault Refusal :=
  rule (takeRequest .setNamespace r.seq (setNamespace r)) s

/-! ## DEFINE EXTENT -/

/-- Some DEFINED record from 4 to 23 of the namespace shares an LBA with the span (R51, check 6). -/
def overlaps (n : NamespaceId) (first last : Nat) (s : State) : Bool :=
  (List.finRange 24).any fun e =>
    match spanIn n s.extents[e] with
    | some p => p.meets first last
    | none => false

/-- A job of the namespace shares an LBA with the span (R51, check 7). -/
def jobMeets (n : NamespaceId) (first last : Nat) (j : Option Job) : Bool :=
  match j with
  | some j =>
    decide (j.ns = n) && decide (j.firstLba ≤ last) && decide (first ≤ j.firstLba + j.count - 1)
  | none => false

/-- Some job record of the namespace shares an LBA with the span. -/
def jobInSpan (n : NamespaceId) (first last : Nat) (s : State) : Bool :=
  (List.finRange 48).any fun t => jobMeets n first last s.jobs[t]

/-- The first check of R51 that applies, after check 1. -/
def defineRefusal (a : DefineArgs) (s : State) : Option ResultCode :=
  if a.extent.val < 4 then some .fixed
  else if s.extents[a.extent].isSome then some .inUse
  else if s.namespaces[a.ns].size = 0 then some .noNamespace
  else if a.last < a.first ∨ s.namespaces[a.ns].size ≤ a.last then some .range
  else if overlaps a.ns a.first a.last s then some .overlap
  else if jobInSpan a.ns a.first a.last s then some .extentBusy
  else none

/-- The record becomes DEFINED (R52), its timer disarmed (R141). -/
def applyDefine (a : DefineArgs) (s : State) : State :=
  setTimer a.extent .disarmed
    (setExtent a.extent
      (some (newExtent a.ns (some { first := a.first, last := a.last }) a.handle
        (Policy.default.carry a.policy))) s)

/-- DEFINE EXTENT's own rule. -/
def defineExtent (r : Request) (s : State) : State :=
  match defineArgs? r with
  | none => answer .defineExtent r.seq .format [] s
  | some a =>
    match defineRefusal a s with
    | some code => answer .defineExtent r.seq code [] s
    | none => answer .defineExtent r.seq .ok [] (applyDefine a s)

/-- DEFINE_EXTENT. -/
def execDefineExtent (r : Request) (s : State) : Host.Outcome State Fault Refusal :=
  rule (takeRequest .defineExtent r.seq (defineExtent r)) s

/-! ## RETIRE EXTENT -/

/-- Some job record names the extent, or shares an LBA with its span (R53, check 5). -/
def extentInUse (e : ExtentId) (x : Extent) (s : State) : Bool :=
  decide (0 < jobsNaming e s) ||
    match x.span with
    | some p => jobInSpan x.ns p.first p.last s
    | none => false

/-- The first check of R53 that applies, after check 1. A global record whose namespace is absent is refused FIXED,
as R53's order of checks has it, and not NO_EXTENT, as R43 has it of the requests of its chapter (DEDUCED,
log 34). -/
def retireRefusal (e : ExtentId) (s : State) : Option ResultCode :=
  if e.val < 4 then some .fixed
  else
    match s.extents[e] with
    | none => some .noExtent
    | some x =>
      if x.key.isLive then some .keyPresent
      else if extentInUse e x s then some .extentBusy
      else none

/-- RETIRE EXTENT's own rule (R53, R54). -/
def retireExtent (r : Request) (s : State) : State :=
  match extentOnly? r with
  | none => answer .retireExtent r.seq .format [] s
  | some e =>
    match retireRefusal e s with
    | some code => answer .retireExtent r.seq code [] s
    | none => answer .retireExtent r.seq .ok [] (setTimer e .disarmed (setExtent e none s))

/-- RETIRE_EXTENT. -/
def execRetireExtent (r : Request) (s : State) : Host.Outcome State Fault Refusal :=
  rule (takeRequest .retireExtent r.seq (retireExtent r)) s

/-! ## SET POLICY -/

/-- The first check of R55 that applies, after check 1. -/
def policyRefusal (a : PolicyArgs) (s : State) : Option ResultCode :=
  match s.extents[a.extent], a.policy.tryLimit with
  | none, _ => some .noExtent
  | some _, none => none
  | some x, some limit =>
    if x.barred then some .barred
    else if limit ≤ x.tryCount then some .limitBelowCount
    else none

/-- The carried usage limit and stop at limit reach the READY slot (table of R71). -/
def policyToSlot (u : PolicyUpdate) (k : SlotId) (s : State) : State :=
  let v := s.slots[k]
  let limit := u.usageLimit.getD v.limit
  let stop := u.stopAtLimit.getD v.stopAtLimit
  if u.usageLimit.isSome = true ∧ limit ≠ 0 ∧ limit ≤ v.usage ∧ v.worn = false then
    setFlag .keyWorn (setSlot k { v with limit := limit, stopAtLimit := stop, worn := true } s)
  else setSlot k { v with limit := limit, stopAtLimit := stop } s

/-- The carried fields are written, the timer restarts, and a LIVE extent's slot takes the usage policy
(R56). -/
def applyPolicy (a : PolicyArgs) (x : Extent) (s : State) : State :=
  let s := judgeTimer true a.extent
    (setExtent a.extent (some { x with policy := x.policy.carry a.policy }) s)
  match x.key with
  | .live k => policyToSlot a.policy k s
  | _ => s

/-- SET POLICY's own rule. -/
def setPolicy (r : Request) (s : State) : State :=
  match policyArgs? r with
  | none => answer .setPolicy r.seq .format [] s
  | some a =>
    match policyRefusal a s, s.extents[a.extent] with
    | some code, _ => answer .setPolicy r.seq code [] s
    | none, none => answer .setPolicy r.seq .noExtent [] s
    | none, some x => answer .setPolicy r.seq .ok [] (applyPolicy a x s)

/-- SET_POLICY. -/
def execSetPolicy (r : Request) (s : State) : Host.Outcome State Fault Refusal :=
  rule (takeRequest .setPolicy r.seq (setPolicy r)) s

/-! ## QUERY EXTENT -/

/-- The items of an extent record (R57, 12.2), by ascending code. -/
def extentItems (e : ExtentId) (x : Extent) (s : State) : List Item :=
  [itemN 0x01 1 x.ns.val]
    ++ (match x.span with
        | some _ => []
        | none => [itemN 0x02 6 s.namespaces[x.ns].size])
    ++ [itemN 0x04 1 x.handle.val]
    ++ (match x.span with
        | some p => [itemN 0x05 5 p.first, itemN 0x06 5 p.last]
        | none => [])
    ++ x.policy.items
    ++ [item1 0x50 0x01, item1 0x51 x.key.code]
    ++ (match x.key with
        | .live k => [itemN 0x52 1 k.val]
        | _ => [])
    ++ [item1 0x53 (boolCode x.readLock), item1 0x54 (boolCode x.writeLock),
        item1 0x55 (boolCode x.barred), itemN 0x56 1 x.tryCount, item1 0x57 (boolCode x.storeStale),
        itemN 0x58 1 (jobsNaming e s)]
    ++ (match s.timers[e] with
        | .counting n => [itemN 0x59 3 n]
        | _ => [])

/-- QUERY EXTENT's own rule (R57): a FREE record is answered with its state alone. -/
def queryExtent (r : Request) (s : State) : State :=
  match extentOnly? r with
  | none => answer .queryExtent r.seq .format [] s
  | some e =>
    match s.extents[e] with
    | none => answer .queryExtent r.seq .ok [item1 0x50 0x00] s
    | some x => answer .queryExtent r.seq .ok (extentItems e x s) s

/-- QUERY_EXTENT. -/
def execQueryExtent (r : Request) (s : State) : Host.Outcome State Fault Refusal :=
  rule (takeRequest .queryExtent r.seq (queryExtent r)) s

end Sys2Proof.Machine
end

