-- ==== Sys2Proof/Machine/Link.lean ====
section
/-! DEFINITION. The Link Master's shared operations: the elements of a transaction in their order (R125,
R126), what the part drives on the two lines in each (R121), beginning a transaction (R124) and a write
operation (R123, R133), link tracking (R122), and the progress of an attempt while nothing else happens, with
the bytes received (R125), missing acknowledges (R127, R128) and abandonment (R135; log 4). -/

namespace Sys2Proof.Machine

/-! ## States that hold the link (table of 8.3) -/

/-- The Link Master holds the link and drives the clock. -/
def LinkState.holdsLink : LinkState → Bool
  | .start | .address | .send | .restart | .receive | .stop => true
  | .idle | .waitFree | .pollWait => false

/-- KSCL and KSDA are released: no transaction holds the link, or the part is inert (R121, R137). -/
def linesReleased (s : State) : Bool :=
  !(s.powered && s.link.state.holdsLink)

/-! ## The elements of a transaction (R125, R126) -/

/-- The state and position in which an element is made (8.3, worked example 8.13). The stops of R127 and
R128 are made in STOP, at the position of the byte that went unacknowledged (nackedStop); here stand the earliest. -/
def placeOf : LinkPoint → LinkState × Position
  | .openingStart => (.start, .address)
  | .writeAddress => (.address, .address)
  | .handleByte => (.send, .handleByte)
  | .dataByte k => (.send, .dataByte (k.val + 1))
  | .repeatedStart => (.restart, .handleByte)
  | .readAddress => (.address, .handleByte)
  | .receiveByte k => (.receive, .dataByte (k.val + 1))
  | .finalStop => (.stop, .dataByte 100)
  | .addressStop => (.stop, .address)
  | .nackStop => (.stop, .handleByte)

/-- The number of a position's data byte, from 0. -/
def Position.byteIndex : Position → Fin 100
  | .dataByte n => Fin.ofNat 100 (n - 1)
  | _ => 0

/-- The element being made, by the state and position of an attempt that holds the link: placeOf read
backwards. The second ADDRESS phase of a READ RECORD is the one whose position is the handle byte. -/
def elementAt (st : LinkState) (p : Position) : LinkPoint :=
  match st, p with
  | .start, _ => .openingStart
  | .address, .address => .writeAddress
  | .address, _ => .readAddress
  | .send, .dataByte n => .dataByte (Position.dataByte n).byteIndex
  | .send, _ => .handleByte
  | .restart, _ => .repeatedStart
  | .receive, p => .receiveByte p.byteIndex
  | _, _ => .finalStop

/-- The place of an element in the order of its transaction, the latest one where it can be met at
several (the stop after an unacknowledged address in either ADDRESS phase; the stop after an
unacknowledged handle or data byte). None where the kind has no such element. -/
def rankOf : TransactionKind → LinkPoint → Option Nat
  | _, .openingStart => some 0
  | _, .writeAddress => some 1
  | _, .handleByte => some 2
  | .readRecord, .repeatedStart => some 3
  | .readRecord, .readAddress => some 4
  | .readRecord, .receiveByte k => some (5 + k.val)
  | .readRecord, .finalStop => some 105
  | .readRecord, .addressStop => some 4
  | .readRecord, .nackStop => some 2
  | .writeRecord, .dataByte k => some (3 + k.val)
  | .writeRecord, .finalStop => some 103
  | .writeRecord, .addressStop => some 1
  | .writeRecord, .nackStop => some 102
  | .readRecord, .dataByte _ => none
  | .writeRecord, .repeatedStart => none
  | .writeRecord, .readAddress => none
  | .writeRecord, .receiveByte _ => none

/-- The element that follows, in a transaction that goes on without a failure. -/
def nextElement (kind : TransactionKind) : LinkPoint → LinkPoint
  | .openingStart => .writeAddress
  | .writeAddress => .handleByte
  | .handleByte =>
    match kind with
    | .readRecord => .repeatedStart
    | .writeRecord => .dataByte 0
  | .repeatedStart => .readAddress
  | .readAddress => .receiveByte 0
  | .receiveByte k => if k.val = 99 then .finalStop else .receiveByte (k + 1)
  | .dataByte k => if k.val = 99 then .finalStop else .dataByte (k + 1)
  | p => p

/-- The stop that is made for a cause. That of an abandoned transaction has no element of its own: it is met as
the transaction's own stop. -/
def StopCause.element : StopCause → LinkPoint
  | .final => .finalStop
  | .address => .addressStop
  | .nack => .nackStop
  | .abandonment => .finalStop

/-- The element the Link Master is making. -/
def currentElement (l : LinkMaster) (x : Transaction) : LinkPoint :=
  if l.state = .stop then x.stopCause.element else elementAt l.state x.position

/-- An element can still be met by the attempt in progress: it is the one being made or a later one. The
elements up to it are then taken to have been made (log 4). -/
def canMeet (l : LinkMaster) (x : Transaction) (p : LinkPoint) : Bool :=
  l.state.holdsLink && !x.abandoning &&
    if l.state = .stop then decide (p = x.stopCause.element)
    else
      match rankOf x.kind (currentElement l x), rankOf x.kind p with
      | some now, some latest => decide (now ≤ latest)
      | _, _ => false

/-- The element of an unacknowledged byte. -/
def nackedElement : NackedByte → LinkPoint
  | .handleByte => .handleByte
  | .dataByte k => .dataByte k

/-- The stop after an unacknowledged byte can be completed by the attempt in progress: it is being made, or the
byte can still be met, and its acknowledge and the stop with it (R128, logs 4 and 22). -/
def canMissAck (l : LinkMaster) (x : Transaction) (b : NackedByte) : Bool :=
  if l.state = .stop then
    canMeet l x .nackStop && decide (x.position = (placeOf (nackedElement b)).2)
  else canMeet l x (nackedElement b)

/-- A repeated start comes before the stop of an abandoned transaction: that of a WRITE RECORD which is in
ADDRESS or SEND (R135). -/
def restartsFirst (l : LinkMaster) (x : Transaction) : Bool :=
  decide (x.kind = .writeRecord) && (decide (l.state = .address) || decide (l.state = .send))

/-- An element can be met while abandoning: the one in progress, the stop still to come, or the repeated start
that comes before it (R135). -/
def canMeetAbandoning (l : LinkMaster) (x : Transaction) (p : LinkPoint) : Bool :=
  l.state.holdsLink && x.abandoning &&
    (decide (p = currentElement l x) || (decide (p = .finalStop) && decide (l.state ≠ .stop))
      || (decide (p = .repeatedStart) && restartsFirst l x))

/-- The opening start of a WRITE RECORD has been made once an event is met past it (R126). An opening start that
is broken by an event met in it (a collision by R130's second case, a stretch timeout) counts as not made, and
write begun stays as it was (DESIGN CHOICE, log 32). -/
def begunBy (x : Transaction) (p : LinkPoint) : Transaction :=
  { x with writeBegun :=
      x.writeBegun || (decide (x.kind = .writeRecord) && decide (p ≠ .openingStart)) }

/-! ## What the part drives (R121, R130) -/

/-- An address byte: the seven-bit device address above, the direction lowest, 1 for read (R121). -/
def addressByte (address : Byte) (read : Bool) : Byte :=
  (address <<< 1) ||| (if read then 0x01 else 0x00)

/-- The byte the part sends in an element, where it sends one: the address bytes at the device address of
SET LINK, the handle byte, and the data bytes of a WRITE RECORD. -/
def sentByte (l : LinkMaster) (x : Transaction) (p : LinkPoint) : Option Byte :=
  match p with
  | .writeAddress => some (addressByte l.settings.deviceAddress false)
  | .readAddress => some (addressByte l.settings.deviceAddress true)
  | .handleByte => some (BitVec.ofNat 8 x.handle.val)
  | .dataByte k => some (x.record.getD k.val 0)
  | _ => none

/-- The high half of data bit i of an element is not over: the element is still to come, or has not got past that
step of the bit (bitLines, log 33). -/
def bitAhead (l : LinkMaster) (x : Transaction) (p : LinkPoint) (i : Nat) : Bool :=
  decide (p ≠ currentElement l x) || decide (x.phase ≤ 2 * i + 1)

/-- The part has a check for a collision still to make in an element (R130). In a byte it sends, the checks are at
the 1 bits, where it has released KSDA and KSCL is high: not at a 0, not in the acknowledge bit, which the device
drives, and not past the last 1. In a start, in a stop, and in the not-acknowledge after the 100th byte there
is a check in the last step. -/
def checksLine (l : LinkMaster) (x : Transaction) (p : LinkPoint) : Bool :=
  match sentByte l x p with
  | some b => (List.finRange 8).any fun i => b.getMsbD i.val && bitAhead l x p i.val
  | none => p.collisionPoint

/-- Both lines are released. -/
def Lines.released : Lines := { kscl := .released, ksda := .released }

/-- The part drives KSDA low for a 0 and releases it for a 1 (R121). -/
def Drive.ofBit (one : Bool) : Drive :=
  if one then .released else .low

/-- A bit: KSDA is set while KSCL is low and stands while KSCL is high (R121). The same form serves a bit that
another device drives, where the part releases KSDA. How many steps an element is cut into is the model's
choice (log 33). -/
def bitLines (ksda : Drive) : List Lines :=
  [{ kscl := .low, ksda := ksda }, { kscl := .released, ksda := ksda }]

/-- A start: KSDA falls while KSCL is high (R121). -/
def startLines : List Lines :=
  [{ kscl := .released, ksda := .released }, { kscl := .released, ksda := .low }]

/-- A repeated start: KSDA is released while KSCL is low, and then as a start (R121). -/
def restartLines : List Lines :=
  { kscl := .low, ksda := .released } :: startLines

/-- A stop: KSDA rises while KSCL is high (R121). -/
def stopLines : List Lines :=
  [{ kscl := .low, ksda := .low }, { kscl := .released, ksda := .low },
    { kscl := .released, ksda := .released }]

/-- A byte: eight data bits, the most significant first, and one acknowledge bit (R121). -/
def byteLines (bits : Fin 8 → Drive) (acknowledge : Drive) : List Lines :=
  (List.finRange 8).flatMap (fun i => bitLines (bits i)) ++ bitLines acknowledge

/-- The part acknowledges a byte it receives: each of the first 99, and none while abandoning (R125, R135). -/
def acknowledges (x : Transaction) (k : Fin 100) : Bool :=
  decide (k.val ≠ 99) && !x.abandoning

/-- What the part does to the lines in the steps of an element (R121). The receiver of a byte drives its
acknowledge bit: low is acknowledge, released is not-acknowledge. -/
def elementLines (l : LinkMaster) (x : Transaction) (p : LinkPoint) : List Lines :=
  match p with
  | .openingStart => startLines
  | .repeatedStart => restartLines
  | .receiveByte k =>
    byteLines (fun _ => .released) (if acknowledges x k then .low else .released)
  | .finalStop => stopLines
  | .addressStop => stopLines
  | .nackStop => stopLines
  | p => byteLines (fun i => Drive.ofBit (((sentByte l x p).getD 0).getMsbD i.val)) .released

/-- What the part does to KSCL and KSDA: the present step of the element being made; both are released where no
transaction holds the link, and where the part is inert (R121, R137). -/
def drivenLines (s : State) : Lines :=
  match s.link.transaction with
  | none => .released
  | some x =>
    if linesReleased s then .released
    else (elementLines s.link x (currentElement s.link x)).getD x.phase .released

/-! ## The bytes received (R125) -/

/-- The record a READ RECORD ends with: the bytes received so far, and the bytes still missing, from a command
that takes them as received (log 5). -/
def completeRecord (x : Transaction) (rest : KeyRecord) : KeyRecord :=
  recordOfBytes (x.record ++ (recordBytes rest).drop x.record.length)

/-! ## Writers -/

/-- The Link Master is rewritten. -/
def setLinkMaster (l : LinkMaster) (s : State) : State :=
  { s with link := l }

/-- Link tracking takes a value (R122). -/
def track (t : Tracking) (watch : Bool) (s : State) : State :=
  setLinkMaster { s.link with tracking := t, releaseWatch := watch } s

/-- A collision makes the link BUSY_OTHER; the release watch stays (R122). -/
def trackBusy (s : State) : State :=
  track .busyOther s.link.releaseWatch s

/-- A stop makes the link FREE and clears the release watch (R122). -/
def trackFree (s : State) : State :=
  track .free false s

/-! ## Beginning (R123, R124) -/

/-- The context at the beginning of an attempt: the bytes that a READ RECORD has received are discarded, and a
WRITE RECORD has all of its bytes still to send (R127, R131). -/
def Transaction.restarted (x : Transaction) : Transaction :=
  { x with
    position := .address
    stopCause := .final
    phase := 0
    record :=
      match x.kind with
      | .readRecord => []
      | .writeRecord => x.record }

/-- The Link Master looks at the tracking value: START if FREE, else WAIT_FREE with a fresh free-wait timer
(R124, R127, R131). -/
def beginAttempt (x : Transaction) (s : State) : State :=
  let x := x.restarted
  match s.link.tracking with
  | .free =>
    setLinkMaster { s.link with state := .start, transaction := some x, freeWait := none } s
  | .busyOther =>
    setLinkMaster
      { s.link with state := .waitFree, transaction := some x
                    freeWait := some s.link.settings.freeWaitLimit } s

/-- A fresh transaction context (R123). -/
def freshTransaction (kind : TransactionKind) (h : Handle) (record : Bytes) : Transaction :=
  { kind := kind, handle := h, record := record, position := .address, lossCount := 0
    addressAttempts := 0, writeBegun := false, finalStopSent := false, abandoning := false
    stopCause := .final, phase := 0 }

/-- The operation state of a write operation that begins (R123). -/
def freshOperation (r : KeyRecord) : WriteOperation :=
  { bytes := r, writeBegun := false, finalStopSent := false, verified := false }

/-- READ RECORD of a handle is requested. A wait the Link Master rests in is taken over (R124, R129). -/
def startRead (h : Handle) (s : State) : State :=
  beginAttempt (freshTransaction .readRecord h []) s

/-- A write operation of a record at a handle is requested: its operation state, and its WRITE RECORD
(R123). -/
def startWrite (h : Handle) (r : KeyRecord) (s : State) : State :=
  beginAttempt (freshTransaction .writeRecord h (recordBytes r))
    (setLinkMaster { s.link with operation := some (freshOperation r) } s)

/-! ## The link becomes FREE -/

/-- The tracking value becomes FREE: a waiting transaction enters START and its free-wait timer stops
(R124); a Link Master that rests after a stretch timeout becomes IDLE (R129). -/
def linkFree (s : State) : State :=
  let s := trackFree s
  match s.link.state, s.link.transaction with
  | .waitFree, some x => beginAttempt x s
  | .waitFree, none => setLinkMaster { s.link with state := .idle, freeWait := none } s
  | _, _ => s

/-! ## Time on the link (log 1, log 4) -/

/-- The Link Master goes on to an element. -/
def enterElement (x : Transaction) (p : LinkPoint) (s : State) : State :=
  setLinkMaster
    { s.link with
      state := (placeOf p).1
      transaction := some
        { begunBy x p with position := (placeOf p).2, stopCause := .final, phase := 0 } } s

/-- The stop that a missing acknowledge leads to; which byte it was stands in the position (R127, R128). -/
def nackedStop (x : Transaction) (p : LinkPoint) (s : State) : State :=
  setLinkMaster
    { s.link with
      state := .stop
      transaction := some
        { begunBy x p with
          stopCause := if p = .writeAddress ∨ p = .readAddress then .address else .nack
          phase := 0 } } s

/-- An abandoned transaction has completed its start, byte or repeated start: it makes its stop, or the repeated
start that comes before it, whatever the device has answered (R135). -/
def windDown (x : Transaction) (s : State) : State :=
  let x := { begunBy x .finalStop with phase := 0 }
  if restartsFirst s.link x then
    setLinkMaster { s.link with state := .restart, transaction := some x } s
  else
    setLinkMaster
      { s.link with state := .stop, transaction := some { x with stopCause := .abandonment } } s

/-- What follows an element that is complete: the next one, or what abandonment makes of it (R125, R126, R135). -/
def leaveElement (x : Transaction) (p : LinkPoint) (s : State) : State :=
  if x.abandoning then windDown x s else enterElement x (nextElement x.kind p) s

/-- An element is complete. A byte that the device has sent is placed in the record: a free value (R125, log 5).
To a byte that the part has sent, the device answers with an acknowledge or leaves it out: a free value (R127,
R128, log 22). -/
def completeElement (x : Transaction) (p : LinkPoint) (s : State) : State :=
  let drawn : State := { s with draws := s.draws + 1 }
  match p with
  | .receiveByte _ =>
    leaveElement { x with record := x.record ++ [Config.receivedByte s.draws] } p drawn
  | _ =>
    if x.abandoning || (sentByte s.link x p).isNone then leaveElement x p s
    else if Config.deviceAcknowledges s.draws then leaveElement x p drawn
    else nackedStop x p drawn

/-- The attempt in progress goes on by one step on the lines; with the last step of an element, that element is
complete. A stop and a wait stay where they are: they end by commands. -/
def advanceLink (s : State) : State :=
  match s.link.transaction with
  | none => s
  | some x =>
    let p := currentElement s.link x
    if !s.link.state.holdsLink then s
    else if x.phase + 1 < (elementLines s.link x p).length then
      setLinkMaster { s.link with transaction := some { x with phase := x.phase + 1 } } s
    else if s.link.state = .stop then s
    else completeElement x p s

end Sys2Proof.Machine
end

