-- ==== Sys2Proof/Machine/Credentials.lean ====
section
/-! DEFINITION. The Credential Unit: key records built and judged (R91, R92), tries (R98), what UNLOCK,
REWRAP, ERASE and GENERATE do when their transactions end (R95, R104, R105, R111, R116) and when hold
entry abandons them (R97, R106, R114, R117); and the end of a transaction, which reports to it (R133,
R134). -/

namespace Sys2Proof.Machine

/-! ## Records (R91, R92) -/

/-- A key of a size in its 64-byte field: a K256 key is the first 32 bytes and the rest is zero (R91). -/
def fitKey (size : KeySize) (k : KeyBlock) : KeyBlock :=
  match size with
  | .k512 => k
  | .k256 => (k >>> 256) <<< 256

/-- The wrapping key of a credential and a salt, with the part's own device secret (6.1). -/
def wrappingKey (c : Credential) (salt : Salt) : Bytes :=
  Config.deriveWrappingKey Config.deviceSecret c salt

/-- The marker of a VALID record (12.3). -/
def validMarker : Byte := 0xA5

/-- The record tag of a record under a credential (R91, R92). -/
def tagUnder (c : Credential) (r : KeyRecord) : BitVec 128 :=
  Config.recordTag (wrappingKey c r.salt) (coveredBytes r)

/-- A VALID record of a key under a credential and a salt (R91). -/
def buildRecord (c : Credential) (salt : Salt) (echo : Byte) (k : LoadedKey) : KeyRecord :=
  let r : KeyRecord :=
    { marker := validMarker, keySize := k.size.code, mode := k.mode.code, handleEcho := echo
      salt := salt, wrapped := Config.keyWrap (wrappingKey c salt) k.block, tag := 0 }
  { r with tag := tagUnder c r }

/-- The verdicts of R92, and a LINK failure code in the place of one. -/
inductive Verdict where
  | link (f : LinkFailure)
  | keyVoid
  | recordBad
  | badCredential
  | sound (k : LoadedKey)
  deriving DecidableEq, Repr

/-- The key of a sound record, unwrapped (R92). -/
def unwrapKey (c : Credential) (r : KeyRecord) (size : KeySize) (mode : SlotMode) : LoadedKey :=
  { block := fitKey size ((Config.keyWrap (wrappingKey c r.salt)).symm r.wrapped)
    size := size, mode := mode }

/-- The judgement of a record read at a handle, test by test (R92). -/
def judgeRecord (c : Credential) (h : Handle) (r : KeyRecord) : Verdict :=
  if r.marker = 0x00 then .keyVoid
  else if r.marker ≠ validMarker then .recordBad
  else if r.handleEcho.toNat ≠ h.val then .recordBad
  else
    match keySizeOf r.keySize.toNat, slotModeOf r.mode.toNat with
    | some size, some mode =>
      if r.tag = tagUnder c r then .sound (unwrapKey c r size mode) else .badCredential
    | _, _ => .recordBad

/-- The verdict on the end of a READ RECORD: a read that failed is not judged (R92). -/
def verdictOn (c : Credential) (h : Handle) : Except LinkFailure KeyRecord → Verdict
  | .error f => .link f
  | .ok r => judgeRecord c h r

/-- The result code of a verdict (R95, R104). -/
def Verdict.result : Verdict → ResultCode
  | .link f => f.result
  | .keyVoid => .keyVoid
  | .recordBad => .recordBad
  | .badCredential => .badCredential
  | .sound _ => .ok

/-! ## Tries (R98) -/

/-- A try is counted, and the extent is barred when its limit is reached. -/
def countTry (e : ExtentId) (s : State) : State :=
  match s.extents[e] with
  | none => s
  | some x =>
    let n := x.tryCount + 1
    if n = x.policy.tryLimit then
      setFlag .barred (setExtent e (some { x with tryCount := n, barred := true }) s)
    else setExtent e (some { x with tryCount := n }) s

/-- Barred and try count, as the record stands (R107). -/
def tryItems (e : ExtentId) (s : State) : List Item :=
  [item1 0x55 (boolCode ((s.extents[e].map Extent.barred).getD false)),
    itemN 0x56 1 ((s.extents[e].map Extent.tryCount).getD 0)]

/-! ## The ends of the long requests -/

/-- The slot allocated to a request, if any, returns to EMPTY (R63). -/
def freeAllocated (k : Option SlotId) (s : State) : State :=
  match k with
  | some k => emptySlot k s
  | none => s

/-- The requested locks are cleared. -/
def Extent.unlocked (d : Directions) (x : Extent) : Extent :=
  { x with readLock := x.readLock && !d.read, writeLock := x.writeLock && !d.write }

/-- A sound verdict on an UNLOCK: load success if a slot was allocated, the requested locks cleared, the try
count 0, and the timer told (R95). -/
def unlockSound (e : ExtentId) (d : Directions) (slot : Option SlotId) (k : LoadedKey) (s : State) :
    State :=
  let s := match slot with
    | some n => loadKey n e k s
    | none => s
  judgeTimer true e (updateExtent e (fun x => { x.unlocked d with tryCount := 0 }) s)

/-- UNLOCK ends by its verdict (R95, R107). -/
def unlockEnd (seq : Byte) (e : ExtentId) (d : Directions) (slot : Option SlotId) (v : Verdict)
    (s : State) : State :=
  match v with
  | .sound k =>
    let s := unlockSound e d slot k s
    endRequest .unlock seq .ok
      ([keyStatusItem e s] ++ slotItems e s ++ lockItems e s
        ++ [itemN 0x56 1 ((s.extents[e].map Extent.tryCount).getD 0)]) s
  | .badCredential =>
    let s := countTry e (freeAllocated slot s)
    endRequest .unlock seq .badCredential (tryItems e s) s
  | v => endRequest .unlock seq v.result [] (freeAllocated slot s)

/-- The proof of a REWRAP has been given: the new record is built under the new credential and its write
operation is requested; the context holds the record read, and the one built (R93, R104, log 27). -/
def rewrapWrite (seq : Byte) (e : ExtentId) (h : Handle) (r : KeyRecord) (new : Credential)
    (k : LoadedKey) (s : State) : State :=
  let salt := Config.randomSalt s.draws
  let record := buildRecord new salt r.handleEcho k
  startWrite h record
    (setContext
      { s.context with
        wrappingKeys := s.context.wrappingKeys ++ [wrappingKey new salt]
        recordRead := some r
        recordBuilt := some record
        key := some k }
      (setExecuting (some { seq := seq, request := .rewrap e true })
        { s with draws := s.draws + 1 }))

/-- The READ RECORD of a REWRAP ends: its proof (R104). R107 can be read as giving a write phase to any LINK
failure code, or only to one after the proof; the model answers one before the proof without data (DESIGN
CHOICE, log 31). -/
def rewrapProof (seq : Byte) (e : ExtentId) (h : Handle) (old new : Credential)
    (read : Except LinkFailure KeyRecord) (s : State) : State :=
  match verdictOn old h read, read with
  | .sound k, .ok r =>
    let s := updateExtent e (fun x => { x with tryCount := 0 }) s
    if s.random.state = .ready then
      rewrapWrite seq e h r new k
        (setContext { s.context with wrappingKeys := [wrappingKey old r.salt] } s)
    else endRequest .rewrap seq .notReady [] s
  | .badCredential, _ =>
    let s := countTry e s
    endRequest .rewrap seq .badCredential (tryItems e s) s
  | v, _ => endRequest .rewrap seq v.result [] s

/-- The result of a write operation as a result code. -/
def WriteOutcome.result : WriteOutcome → ResultCode
  | .verified => .ok
  | .differs => .verifyFail
  | .failed f => f.result

/-- Which record stands at the handle after a write operation (third column of R105's table). -/
inductive StandingRecord where
  | new
  | unknown
  | old
  | newMostLikely
  deriving DecidableEq, Repr

/-- What the outcome and final stop sent tell of the record at the handle (R105, R134). -/
def WriteEnd.standing (w : WriteEnd) : StandingRecord :=
  match w.outcome with
  | .verified => .new
  | .differs => .unknown
  | .failed _ => if w.facts.finalStopSent then .newMostLikely else .old

/-- A REWRAP whose proof has been given ends (R105). -/
def rewrapEnd (seq : Byte) (w : WriteEnd) (s : State) : State :=
  endRequest .rewrap seq w.outcome.result [phaseItem w.facts.phase] s

/-- Store stale is settled, and STORE_STALE set when it becomes yes (R111, R112). -/
def settleStale (e : ExtentId) (stale : Bool) (s : State) : State :=
  let s := updateExtent e (fun x => { x with storeStale := stale }) s
  if stale then setFlag .storeStale s else s

/-- The void write of an ERASE ends: store stale is settled now, and the request is answered now or when its
drain has ended (R110, R111). -/
def eraseWritten (seq : Byte) (e : ExtentId) (drain : Option SlotId) (w : WriteEnd) (s : State) :
    State :=
  let s := settleStale e (decide (w.outcome ≠ .verified)) s
  match drain with
  | none => answerErase seq e w s
  | some k => setExecuting (some { seq := seq, request := .erase e (some k) (some w) }) s

/-- The key of a GENERATE leaves the context for its slot, and the extent becomes LIVE (R116). -/
def generateLoad (e : ExtentId) (d : Directions) (slot : SlotId) (k : LoadedKey) (s : State) :
    State :=
  judgeTimer true e
    (updateExtent e (fun x => { x.unlocked d with storeStale := false }) (loadKey slot e k s))

/-- The write operation of a GENERATE ends (R116, R120). The context holds the drawn key; the arm without one
is not reached (log 26). -/
def generateEnd (seq : Byte) (e : ExtentId) (d : Directions) (slot : SlotId) (w : WriteEnd)
    (s : State) : State :=
  match w.outcome, s.context.key with
  | .verified, some k =>
    let s := generateLoad e d slot k s
    endRequest .generate seq .ok
      ([item1 0x26 k.size.code, item1 0x27 k.mode.code, itemN 0x52 1 slot.val] ++ lockItems e s) s
  | o, _ => endRequest .generate seq o.result [phaseItem w.facts.phase] (emptySlot slot s)

/-- The end of a READ RECORD that is no read-back reaches the executing request. A read is asked for by an
UNLOCK or by a REWRAP whose credentials stand in the context; the last arms are not reached (log 26). -/
def readEnded (h : Handle) (read : Except LinkFailure KeyRecord) (s : State) : State :=
  match s.executing with
  | some { seq, request := .unlock e d slot } =>
    match s.context.credential with
    | some c => unlockEnd seq e d slot (verdictOn c h read) s
    | none => s
  | some { seq, request := .rewrap e false } =>
    match s.context.credential, s.context.newCredential with
    | some old, some new => rewrapProof seq e h old new read s
    | _, _ => s
  | _ => s

/-- The end of a write operation reaches the executing request. -/
def writeEnded (w : WriteEnd) (s : State) : State :=
  match s.executing with
  | some { seq, request := .rewrap _ true } => rewrapEnd seq w s
  | some { seq, request := .erase e drain none } => eraseWritten seq e drain w s
  | some { seq, request := .generate e d slot } => generateEnd seq e d slot w s
  | _ => s

/-! ## Abandonment (R97, R106, R114, R117) -/

/-- The write facts that are reported of a write operation; without one no write has begun (R134). -/
def factsOf : Option WriteOperation → WriteFacts
  | none => { writeBegun := false, finalStopSent := false, verified := false }
  | some o => o.toWriteFacts

/-- The write facts an abandoned ERASE ends with: those of its ended void write, or of the one cut off
(R114). -/
def eraseFacts (written : Option WriteEnd) (facts : WriteFacts) : WriteFacts :=
  match written with
  | some w => w.facts
  | none => facts

/-- The executing request ends ABANDONED, with the write phase reached. A REWRAP abandoned before its proof
has made no write, and its phase is NOT_BEGUN (R107, log 20). -/
def requestAbandoned (facts : WriteFacts) (s : State) : State :=
  match s.executing with
  | none => s
  | some { seq, request } =>
    match request with
    | .unlock _ _ slot => endRequest .unlock seq .abandoned [] (freeAllocated slot s)
    | .rewrap _ _ => endRequest .rewrap seq .abandoned [phaseItem facts.phase] s
    | .erase e _ written =>
      let p := (eraseFacts written facts).phase
      let s := settleStale e (decide (p ≠ .verified)) s
      endRequest .erase seq .abandoned [staleItem e s, phaseItem p] s
    | .generate _ _ slot =>
      endRequest .generate seq .abandoned [phaseItem facts.phase] (emptySlot slot s)

/-! ## The end of a transaction (R133, R134) -/

/-- How a transaction ends (table of R134; VERIFY_FAIL belongs to write operations). -/
inductive TransactionResult where
  | readOk (r : KeyRecord)
  | writeOk
  | failed (f : LinkFailure)
  | abandoned
  deriving DecidableEq, Repr

/-- The write facts of a WRITE RECORD join the operation's; those of a read-back do not touch them (R123). -/
def absorb (x : Transaction) (o : WriteOperation) : WriteOperation :=
  match x.kind with
  | .writeRecord => { o with writeBegun := x.writeBegun, finalStopSent := x.finalStopSent }
  | .readRecord => o

/-- The context is cleared and the Link Master rests: IDLE, or WAIT_FREE after a stretch timeout (R134). -/
def clearTransaction (rest : LinkState) (op : Option WriteOperation) (s : State) : State :=
  setLinkMaster { s.link with state := rest, transaction := none, operation := op, freeWait := none } s

/-- A LINK failure code sets LINK_FAIL in the rule that ends the transaction with it (R134). -/
def flagFailure (r : TransactionResult) (s : State) : State :=
  match r with
  | .failed _ => setFlag .linkFail s
  | _ => s

/-- The read-back is compared with the bytes written (R133). -/
def compareReadBack (o : WriteOperation) (r : KeyRecord) : WriteEnd :=
  let same := decide (r = o.bytes)
  { outcome := if same then .verified else .differs, facts := { o.toWriteFacts with verified := same } }

/-- A transaction ends, and what it means for the request that asked for it: a READ RECORD reports to the
Credential Unit, or is the read-back of a write operation; a WRITE RECORD ended OK is followed by its
read-back; a failure ends the write operation; an abandoned one ends the request (R133 to R135). -/
def endTransaction (x : Transaction) (r : TransactionResult) (rest : LinkState) (s : State) : State :=
  let op := s.link.operation.map (absorb x)
  match r, op with
  | .readOk k, none => readEnded x.handle (.ok k) (clearTransaction rest none s)
  | .readOk k, some o => writeEnded (compareReadBack o k) (clearTransaction rest none s)
  | .writeOk, _ => startRead x.handle (clearTransaction rest op s)
  | .failed f, none => readEnded x.handle (.error f) (flagFailure r (clearTransaction rest none s))
  | .failed f, some o =>
    writeEnded { outcome := .failed f, facts := o.toWriteFacts }
      (flagFailure r (clearTransaction rest none s))
  | .abandoned, _ => requestAbandoned (factsOf op) (clearTransaction rest none s)

end Sys2Proof.Machine
end

