-- ==== Sys2Proof/Machine/KeyRequests.lean ====
section
/-! DEFINITION. The requests that reach keys: UNLOCK (R94), LOCK (R100, R101), REWRAP (R103), ERASE (R108,
R109) and GENERATE (R115), and the Random Source's events (R118). -/

namespace Sys2Proof.Machine

/-! ## UNLOCK -/

/-- The first check of R94 that applies, after check 1 and check 2. -/
def unlockRefusal (x : Extent) (s : State) : Option ResultCode :=
  if x.barred then some .barred
  else
    match x.key with
    | .erased => some .keyErased
    | .none => if (emptySlot? s).isNone then some .noSlot else none
    | .live _ => none

/-- The slot an UNLOCK allocates: one only where the key status is NONE (R94, R60). -/
def unlockSlot (x : Extent) (s : State) : Option SlotId :=
  match x.key with
  | .none => emptySlot? s
  | _ => none

/-- A slot, if there is one to allocate, becomes LOADING. -/
def allocateIf (k : Option SlotId) (e : ExtentId) (s : State) : State :=
  match k with
  | some k => allocate k e s
  | none => s

/-- UNLOCK begins: its slot, its credential and its READ RECORD (R94). -/
def beginUnlock (seq : Byte) (a : UnlockArgs) (x : Extent) (s : State) : State :=
  let slot := unlockSlot x s
  startRead x.handle
    (setContext { WorkingContext.empty with credential := some a.credential }
      (setExecuting (some { seq := seq, request := .unlock a.extent a.dirs slot })
        (allocateIf slot a.extent s)))

/-- UNLOCK's own rule. -/
def unlock (r : Request) (s : State) : State :=
  match unlockArgs? r with
  | none => answer .unlock r.seq .format [] s
  | some a =>
    match s.extents[a.extent] with
    | none => answer .unlock r.seq .noExtent [] s
    | some x =>
      match unlockRefusal x s with
      | some code => answer .unlock r.seq code [] s
      | none => beginUnlock r.seq a x s

/-- UNLOCK. -/
def execUnlock (r : Request) (s : State) : Host.Outcome State Fault Refusal :=
  rule (takeRequest .unlock r.seq (unlock r)) s

/-! ## LOCK -/

/-- The jobs a LOCK in CUT mode names (R101, step 1). -/
def lockNames (a : LockArgs) (j : Job) : Bool :=
  decide (j.extent = a.extent) &&
    (a.forget || match j.direction with
      | .encipher => a.dirs.write
      | .decipher => a.dirs.read)

/-- The named locks are set. -/
def Extent.locked (d : Directions) (x : Extent) : Extent :=
  { x with readLock := x.readLock || d.read, writeLock := x.writeLock || d.write }

/-- The slot that a release in state `s` left DRAINING in state `t`, if any (R107). -/
def leftDraining (e : ExtentId) (s t : State) : Option SlotId :=
  match s.extents[e].map Extent.key with
  | some (.live k) =>
    match t.slots[k].state with
    | .draining _ => some k
    | _ => none
  | _ => none

/-- The item of a slot that is left DRAINING. -/
def drainingItems (k : Option SlotId) : List Item :=
  match k with
  | some k => [itemN 0x52 1 k.val]
  | none => []

/-- A cut is carried out in CUT mode only. -/
def cutIf (cut : Bool) (named : Job → Bool) (r : CutReason) (s : State) : State :=
  if cut then cutJobs named r s else s

/-- A release is made only where it is asked for. -/
def releaseIf (forget : Bool) (e : ExtentId) (s : State) : State :=
  if forget then releaseExtent .forget e s else s

/-- The five steps of LOCK (R101). -/
def carryOutLock (seq : Byte) (a : LockArgs) (s : State) : State :=
  let s := updateExtent a.extent (Extent.locked a.dirs) (cutIf a.cut (lockNames a) .cutLock s)
  let t := judgeTimer false a.extent (releaseIf a.forget a.extent s)
  answer .lock seq .ok
    ([keyStatusItem a.extent t]
      ++ drainingItems (if a.forget then leftDraining a.extent s t else none)
      ++ lockItems a.extent t) t

/-- LOCK's own rule (R100, R101). -/
def lock (r : Request) (s : State) : State :=
  match lockArgs? r with
  | none => answer .lock r.seq .format [] s
  | some a =>
    match s.extents[a.extent] with
    | none => answer .lock r.seq .noExtent [] s
    | some _ => carryOutLock r.seq a s

/-- LOCK. -/
def execLock (r : Request) (s : State) : Host.Outcome State Fault Refusal :=
  rule (takeRequest .lock r.seq (lock r)) s

/-! ## REWRAP -/

/-- The first check of R103 that applies, after check 1 and check 2. -/
def rewrapRefusal (x : Extent) (s : State) : Option ResultCode :=
  if x.barred then some .barred
  else if x.key = .erased then some .keyErased
  else if s.random.state ≠ .ready then some .notReady
  else none

/-- REWRAP begins: both credentials and its READ RECORD (R103). -/
def beginRewrap (seq : Byte) (a : RewrapArgs) (x : Extent) (s : State) : State :=
  startRead x.handle
    (setContext
      { WorkingContext.empty with credential := some a.old, newCredential := some a.new }
      (setExecuting (some { seq := seq, request := .rewrap a.extent false }) s))

/-- REWRAP's own rule. -/
def rewrap (r : Request) (s : State) : State :=
  match rewrapArgs? r with
  | none => answer .rewrap r.seq .format [] s
  | some a =>
    match s.extents[a.extent] with
    | none => answer .rewrap r.seq .noExtent [] s
    | some x =>
      match rewrapRefusal x s with
      | some code => answer .rewrap r.seq code [] s
      | none => beginRewrap r.seq a x s

/-- REWRAP. -/
def execRewrap (r : Request) (s : State) : Host.Outcome State Fault Refusal :=
  rule (takeRequest .rewrap r.seq (rewrap r)) s

/-! ## ERASE -/

/-- The extent is not barred and has no tries (R109, step 3). -/
def Extent.cleared (x : Extent) : Extent :=
  { x with barred := false, tryCount := 0 }

/-- The five steps of the local part of ERASE (R109). Whether it waits for a drain is decided here
(R110). -/
def carryOutErase (seq : Byte) (a : EraseArgs) (x : Extent) (s : State) : State :=
  let s := cutIf a.cut (fun j => decide (j.extent = a.extent)) .cutErase s
  let t := judgeTimer false a.extent
    (updateExtent a.extent Extent.cleared (releaseExtent .erase a.extent s))
  startWrite x.handle voidRecord
    (setContext { WorkingContext.empty with recordBuilt := some voidRecord }
      (setExecuting
        (some { seq := seq, request := .erase a.extent (leftDraining a.extent s t) none }) t))

/-- ERASE's own rule (R108, R109). -/
def erase (r : Request) (s : State) : State :=
  match eraseArgs? r with
  | none => answer .erase r.seq .format [] s
  | some a =>
    match s.extents[a.extent] with
    | none => answer .erase r.seq .noExtent [] s
    | some x => carryOutErase r.seq a x s

/-- ERASE. -/
def execErase (r : Request) (s : State) : Host.Outcome State Fault Refusal :=
  rule (takeRequest .erase r.seq (erase r)) s

/-! ## GENERATE -/

/-- The key GENERATE draws (R115, step 2). -/
def drawnKey (a : GenerateArgs) (s : State) : LoadedKey :=
  { block := fitKey a.size (Config.randomKey s.draws), size := a.size, mode := a.mode }

/-- The VALID record GENERATE builds; its handle echo is the extent's handle (R115, step 3). -/
def generatedRecord (a : GenerateArgs) (x : Extent) (s : State) : KeyRecord :=
  buildRecord a.credential (Config.randomSalt s.draws) (BitVec.ofNat 8 x.handle.val) (drawnKey a s)

/-- The context a GENERATE fills (R93, R115, log 27). -/
def generateContext (a : GenerateArgs) (x : Extent) (s : State) : WorkingContext :=
  { credential := some a.credential, newCredential := none
    wrappingKeys := [wrappingKey a.credential (Config.randomSalt s.draws)]
    recordRead := none, recordBuilt := some (generatedRecord a x s), key := some (drawnKey a s) }

/-- GENERATE begins (R115, its four steps). -/
def beginGenerate (seq : Byte) (a : GenerateArgs) (x : Extent) (k : SlotId) (s : State) : State :=
  startWrite x.handle (generatedRecord a x s)
    (setContext (generateContext a x s)
      (setExecuting (some { seq := seq, request := .generate a.extent a.dirs k })
        { allocate k a.extent s with draws := s.draws + 1 }))

/-- GENERATE's own rule: checks 3 to 5 of R115, then its steps. -/
def generateOn (r : Request) (a : GenerateArgs) (x : Extent) (s : State) : State :=
  if x.key ≠ .erased then answer .generate r.seq .keyPresent [] s
  else if s.random.state ≠ .ready then answer .generate r.seq .notReady [] s
  else
    match emptySlot? s with
    | none => answer .generate r.seq .noSlot [] s
    | some k => beginGenerate r.seq a x k s

/-- GENERATE's own rule: checks 1 and 2 of R115. -/
def generate (r : Request) (s : State) : State :=
  match generateArgs? r with
  | none => answer .generate r.seq .format [] s
  | some a =>
    match s.extents[a.extent] with
    | none => answer .generate r.seq .noExtent [] s
    | some x => generateOn r a x s

/-- GENERATE. -/
def execGenerate (r : Request) (s : State) : Host.Outcome State Fault Refusal :=
  rule (takeRequest .generate r.seq (generate r)) s

/-! ## The Random Source (R118) -/

/-- The warm-up count that makes the source READY. -/
def warmUpFull : Nat := 1024

/-- A sample that passed its tests: in WARMING it raises the warm-up count, and the 1024th makes the source
READY; in READY and FAILED nothing changes. -/
def takeSample (s : State) : State :=
  if s.random.state = .warming then
    let n := s.random.warmUp + 1
    setRandom { state := if n = warmUpFull then .ready else .warming, warmUp := n } s
  else s

/-- RANDOM_SAMPLE. -/
def execRandomSample (s : State) : Host.Outcome State Fault Refusal :=
  rule takeSample s

/-- The sample that ends warm-up; it is taken only where the count stands one below 1024 (log 24). -/
def endWarmUp (s : State) : State :=
  if s.random.state = .warming ∧ s.random.warmUp + 1 = warmUpFull then
    setRandom { state := .ready, warmUp := warmUpFull } s
  else s

/-- WARM_UP_END. -/
def execWarmUpEnd (s : State) : Host.Outcome State Fault Refusal :=
  rule endWarmUp s

/-- The repetition test fails: FAILED, and RANDOM_FAIL is set. It runs in WARMING and in READY only, and may fail at
any sample there: the spec gives its cutoff no value, and the run of identical samples is not kept (DESIGN
CHOICE, log 36). -/
def failRepetition (s : State) : State :=
  if s.random.state = .failed then s
  else setFlag .randomFail (setRandom { s.random with state := .failed } s)

/-- REPETITION_TEST_FAILURE. -/
def execRepetitionTestFailure (s : State) : Host.Outcome State Fault Refusal :=
  rule failRepetition s

end Sys2Proof.Machine
end

