-- ==== Sys2Proof/Machine/KeySlots.lean ====
section
/-! DEFINITION. QUERY_SLOT (R73). -/

namespace Sys2Proof.Machine

/-- The bound extent item: LOADING and READY. -/
def boundItems : SlotState → List Item
  | .loading e => [itemN 0x5B 1 e.val]
  | .ready e _ => [itemN 0x5B 1 e.val]
  | _ => []

/-- The key size and mode items: READY and DRAINING. -/
def keyItems : SlotState → List Item
  | .ready _ k => [item1 0x26 k.size.code, item1 0x27 k.mode.code]
  | .draining k => [item1 0x26 k.size.code, item1 0x27 k.mode.code]
  | _ => []

/-- The items of a slot (R73, 12.2), by ascending code; never its key material. -/
def slotRecordItems (v : Slot) : List Item :=
  [itemN 0x1C 6 v.limit, item1 0x1D (boolCode v.stopAtLimit)]
    ++ keyItems v.state
    ++ [item1 0x5A v.state.code]
    ++ boundItems v.state
    ++ [itemN 0x5C 1 v.pins, itemN 0x5D 6 v.usage, item1 0x5E (boolCode v.worn)]

/-- QUERY SLOT's own rule. -/
def querySlot (r : Request) (s : State) : State :=
  match slotOnly? r with
  | none => answer .querySlot r.seq .format [] s
  | some k => answer .querySlot r.seq .ok (slotRecordItems s.slots[k]) s

/-- QUERY_SLOT. -/
def execQuerySlot (r : Request) (s : State) : Host.Outcome State Fault Refusal :=
  rule (takeRequest .querySlot r.seq (querySlot r)) s

end Sys2Proof.Machine
end

