-- ==== Sys2Proof/Machine/KeyStoreLink.lean ====
section
/-! DEFINITION. The events of the Key Store Link (R122 to R135) and SET_LINK (R136). An event that the
transaction in progress cannot meet leaves the part unchanged (log 2). -/

namespace Sys2Proof.Machine

/-! ## Ends without failure -/

/-- The stop of a READ RECORD completes; the command brings the bytes not received yet (R125, log 5). -/
def endRead (rest : KeyRecord) (s : State) : State :=
  match s.link.transaction with
  | none => s
  | some x =>
    if x.kind = .readRecord ∧ canMeet s.link x .finalStop = true then
      endTransaction x (.readOk (completeRecord x rest)) .idle (trackFree s)
    else s

/-- READ_RECORD_END. -/
def execReadRecordEnd (rest : KeyRecord) (s : State) : Host.Outcome State Fault Refusal :=
  rule (endRead rest) s

/-- The final stop of a WRITE RECORD completes: final stop sent becomes yes, and the read-back begins in the
same rule (R126, R133). -/
def endWrite (s : State) : State :=
  match s.link.transaction with
  | none => s
  | some x =>
    if x.kind = .writeRecord ∧ canMeet s.link x .finalStop = true then
      endTransaction { x with writeBegun := true, finalStopSent := true } .writeOk .idle
        (trackFree s)
    else s

/-- WRITE_RECORD_END. -/
def execWriteRecordEnd (s : State) : Host.Outcome State Fault Refusal :=
  rule endWrite s

/-! ## Missing acknowledges -/

/-- The number of unacknowledged addresses that ends a transaction (R127). -/
def maxAttempts : Nat := 24

/-- The context after one more unacknowledged address: the count rises as its stop ends (R127, log 22). -/
def unacknowledged (x : Transaction) : Transaction :=
  { begunBy x .addressStop with addressAttempts := x.addressAttempts + 1 }

/-- POLL_WAIT is entered; the next attempt begins from the opening start (R127). -/
def pollWait (x : Transaction) (s : State) : State :=
  setLinkMaster
    { s.link with
      state := .pollWait
      transaction := some { x with position := .address, stopCause := .final, phase := 0 } } s

/-- An address byte is not acknowledged and the part has made its stop (R127). -/
def addressNacked (s : State) : State :=
  match s.link.transaction with
  | none => s
  | some x =>
    if canMeet s.link x .addressStop then
      let x := unacknowledged x
      if x.addressAttempts = maxAttempts then
        endTransaction x (.failed .noDevice) .idle (trackFree s)
      else pollWait x (trackFree s)
    else s

/-- ADDRESS_NOT_ACKNOWLEDGED. -/
def execAddressNotAcknowledged (s : State) : Host.Outcome State Fault Refusal :=
  rule addressNacked s

/-- The poll wait ends (R127). -/
def endPollWait (s : State) : State :=
  match s.link.state, s.link.transaction with
  | .pollWait, some x => beginAttempt x s
  | _, _ => s

/-- POLL_WAIT_END. -/
def execPollWaitEnd (s : State) : Host.Outcome State Fault Refusal :=
  rule endPollWait s

/-- The handle byte or a data byte is not acknowledged and the part has made its stop (R128). -/
def dataNacked (b : NackedByte) (s : State) : State :=
  match s.link.transaction with
  | none => s
  | some x =>
    if canMissAck s.link x b then
      endTransaction (begunBy x (nackedElement b)) (.failed .nackData) .idle (trackFree s)
    else s

/-- NACK_DATA. -/
def execNackData (b : NackedByte) (s : State) : Host.Outcome State Fault Refusal :=
  rule (dataNacked b) s

/-! ## Stretch timeouts (R129) -/

/-- The result a transaction ends with when a stretch timeout is met at an element: the one already decided
in the stops after a failure and while abandoning, else STRETCH_TIMEOUT. -/
def stretchResult (x : Transaction) (p : LinkPoint) : TransactionResult :=
  if x.abandoning then .abandoned
  else
    match p with
    | .nackStop => .failed .nackData
    | .addressStop =>
      if x.addressAttempts + 1 = maxAttempts then .failed .noDevice else .failed .stretchTimeout
    | _ => .failed .stretchTimeout

/-- KSCL is held low beyond the stretch limit at an element. -/
def stretchOut (p : LinkPoint) (s : State) : State :=
  match s.link.transaction with
  | none => s
  | some x =>
    if canMeet s.link x p || canMeetAbandoning s.link x p then
      endTransaction (begunBy x p) (stretchResult x p) .waitFree (track .busyOther true s)
    else s

/-- STRETCH_TIMEOUT. -/
def execStretchTimeout (p : LinkPoint) (s : State) : Host.Outcome State Fault Refusal :=
  closingRule (stretchOut p) s

/-! ## Collisions (R130 to R132) -/

/-- The number of losses tolerated (R131). -/
def maxLosses : Nat := 3

/-- A loss: the whole transaction waits for the link and begins again, or ends LOST (R131). -/
def loseArbitration (x : Transaction) (s : State) : State :=
  if x.lossCount < maxLosses then
    beginAttempt { x with lossCount := x.lossCount + 1 } s
  else endTransaction x (.failed .lost) .idle s

/-- A collision at an element of an attempt that is not being abandoned (R131, R132). The link is
BUSY_OTHER already. -/
def collide (x : Transaction) (p : LinkPoint) (rest : KeyRecord) (s : State) : State :=
  match x.kind, p with
  | .readRecord, .receiveByte _ => endTransaction x (.readOk (completeRecord x rest)) .idle s
  | .readRecord, .finalStop => endTransaction x (.readOk (completeRecord x rest)) .idle s
  | _, .nackStop => endTransaction x (.failed .nackData) .idle s
  | _, .addressStop =>
    if x.addressAttempts + 1 = maxAttempts then
      endTransaction (unacknowledged x) (.failed .noDevice) .idle s
    else loseArbitration (unacknowledged x) s
  | _, _ => loseArbitration x s

/-- A collision is met at an element in which the part has a check for one still to make (R130); elsewhere it is not
seen (log 2). -/
def meetCollision (p : LinkPoint) (rest : KeyRecord) (s : State) : State :=
  match s.link.transaction with
  | none => s
  | some x =>
    if !checksLine s.link x p then s
    else if canMeet s.link x p then collide (begunBy x p) p rest (trackBusy s)
    else if canMeetAbandoning s.link x p then
      endTransaction (begunBy x p) .abandoned .idle (trackBusy s)
    else s

/-- COLLISION. -/
def execCollision (p : LinkPoint) (rest : KeyRecord) (s : State) :
    Host.Outcome State Fault Refusal :=
  closingRule (meetCollision p rest) s

/-! ## Waiting and tracking -/

/-- The free-wait timer expires (R124). -/
def freeWaitEnds (s : State) : State :=
  match s.link.state, s.link.transaction, s.link.freeWait with
  | .waitFree, some x, some _ => endTransaction x (.failed .linkStuck) .idle s
  | _, _, _ => s

/-- FREE_WAIT_EXPIRY. -/
def execFreeWaitExpiry (s : State) : Host.Outcome State Fault Refusal :=
  rule freeWaitEnds s

/-- OTHER_MASTER_START: a start on the link that the part did not make (R122). -/
def execOtherMasterStart (s : State) : Host.Outcome State Fault Refusal :=
  rule trackBusy s

/-- STOP_OBSERVED: a stop on the link makes it FREE (R122, R124). -/
def execStopObserved (s : State) : Host.Outcome State Fault Refusal :=
  rule linkFree s

/-- Both lines have been high for 16 bit periods: FREE, if the release watch is set (R122). -/
def quiet (s : State) : State :=
  if s.link.releaseWatch then linkFree s else s

/-- RELEASE_WATCH_QUIET. -/
def execReleaseWatchQuiet (s : State) : Host.Outcome State Fault Refusal :=
  rule quiet s

/-! ## The stop of an abandoned transaction (R135) -/

/-- The context when the stop has completed: a stop that was already the final stop of a WRITE RECORD when the
abandonment was taken sets final stop sent; the stop that abandonment makes, and those after a missing
acknowledge, do not. -/
def afterAbandonedStop (l : LinkMaster) (x : Transaction) : Transaction :=
  { begunBy x .finalStop with
    finalStopSent :=
      x.finalStopSent ||
        (decide (x.kind = .writeRecord) && decide (l.state = .stop) && decide (x.stopCause = .final)) }

/-- The stop made after abandonment completes: the transaction ends ABANDONED. -/
def abandonedStop (s : State) : State :=
  match s.link.transaction with
  | none => s
  | some x =>
    if x.abandoning && s.link.state.holdsLink then
      endTransaction (afterAbandonedStop s.link x) .abandoned .idle (trackFree s)
    else s

/-- ABANDONED_STOP_COMPLETES. -/
def execAbandonedStopCompletes (s : State) : Host.Outcome State Fault Refusal :=
  closingRule abandonedStop s

/-! ## SET LINK (R136) -/

/-- The carried settings replace the link's. -/
def LinkSettings.carry (l : LinkSettings) (a : LinkArgs) : LinkSettings :=
  { rate := a.rate.getD l.rate
    deviceAddress := a.deviceAddress.getD l.deviceAddress
    stretchLimit := a.stretchLimit.getD l.stretchLimit
    freeWaitLimit := a.freeWaitLimit.getD l.freeWaitLimit }

/-- The five settings as they stand. -/
def linkItems (s : State) : List Item :=
  [item1 0x30 s.link.settings.rate.code, item1 0x31 s.link.settings.deviceAddress,
    itemN 0x32 1 s.link.settings.stretchLimit, itemN 0x33 1 s.link.settings.freeWaitLimit,
    item1 0x34 (boolCode s.stallOnFull)]

/-- A withheld Sector In is dropped when stall on full is clear (R12, R13). -/
def dropWithheld (s : State) : State :=
  match s.stallOnFull, s.withheld with
  | false, some w => overrun w.tag { s with withheld := none }
  | _, _ => s

/-- Every carried setting is written, all together. -/
def applyLink (a : LinkArgs) (s : State) : State :=
  dropWithheld
    { s with link := { s.link with settings := s.link.settings.carry a }
             stallOnFull := a.stallOnFull.getD s.stallOnFull }

/-- SET LINK's own rule. -/
def setLink (r : Request) (s : State) : State :=
  match linkArgs? r with
  | none => answer .setLink r.seq .format [] s
  | some a =>
    let s := applyLink a s
    answer .setLink r.seq .ok (linkItems s) s

/-- SET_LINK. -/
def execSetLink (r : Request) (s : State) : Host.Outcome State Fault Refusal :=
  rule (takeRequest .setLink r.seq (setLink r)) s

end Sys2Proof.Machine
end

