-- ==== Sys2Proof/Machine/Management.lean ====
section
/-! DEFINITION. IDENTIFY (R150), READ_EVENTS (R153), CLEAR_EVENTS (R154), SET_EVENT_ENABLES (R155) and
UNKNOWN_REQUEST (R148, R164). -/

namespace Sys2Proof.Machine

/-! ## IDENTIFY -/

/-- The pipes whose service state is IN_SERVICE. -/
def pipesInService (s : State) : Nat :=
  (List.finRange 4).countP fun p => s.pipes[p].inService

/-- The capacities: 48 job tags, 96 sector buffers, 24 extents, 32 key slots. -/
def capacities : Item :=
  { code := 0x6D, value := [48, 96, 24, 32] }

/-- The data of IDENTIFY. -/
def identityItems (s : State) : List Item :=
  [itemN 0x68 2 Config.partCode.toNat, item1 0x69 Config.revision, itemN 0x6A 1 (pipesInService s),
    item1 0x6B s.power.code, item1 0x6C s.random.state.code, capacities]

/-- IDENTIFY's own rule. -/
def identify (r : Request) (s : State) : State :=
  if bare r then answer .identify r.seq .ok (identityItems s) s
  else answer .identify r.seq .format [] s

/-- IDENTIFY. -/
def execIdentify (r : Request) (s : State) : Host.Outcome State Fault Refusal :=
  rule (takeRequest .identify r.seq (identify r)) s

/-! ## READ EVENTS -/

/-- The flags that are SET, the enables that are set, and the SET flags whose mark is yes, as they stand. -/
def statesItem (s : State) : Item :=
  itemN 0x70 2 (flagSet EventFlag.isSet s)

def enablesItem (s : State) : Item :=
  itemN 0x71 2 (flagSet EventFlag.enable s)

def marksItem (s : State) : Item :=
  itemN 0x72 2 (flagSet EventFlag.isReported s)

/-- A SET flag has its mark made yes (R153). -/
def EventFlag.reported (f : EventFlag) : EventFlag :=
  match f.state with
  | .clear => f
  | .set _ => { f with state := .set true }

/-- READ EVENTS's own rule: the answer shows the marks as they stood before it. -/
def readEvents (r : Request) (s : State) : State :=
  if bare r then
    answer .readEvents r.seq .ok [statesItem s, enablesItem s, marksItem s]
      (mapFlags (fun _ f => f.reported) s)
  else answer .readEvents r.seq .format [] s

/-- READ_EVENTS. -/
def execReadEvents (r : Request) (s : State) : Host.Outcome State Fault Refusal :=
  rule (takeRequest .readEvents r.seq (readEvents r)) s

/-! ## CLEAR EVENTS -/

/-- A listed flag that has been reported becomes CLEAR; one that has not is kept (R154). -/
def EventFlag.cleared (f : EventFlag) : EventFlag :=
  match f.state with
  | .set true => { f with state := .clear }
  | _ => f

/-- The flag in a place is one of a list. -/
def listed (fs : List Flag) (i : Fin 13) : Bool :=
  fs.any fun f => decide (f.idx = i)

/-- The listed flags that are kept: SET with mark no. -/
def keptSet (fs : List Flag) (s : State) : Nat :=
  ((List.finRange 13).map fun i =>
    if listed fs i && s.flags[i].isSet && !s.flags[i].isReported then 2 ^ i.val else 0).sum

/-- The listed flags are treated by their state. -/
def clearListed (fs : List Flag) (s : State) : State :=
  mapFlags (fun i f => if listed fs i then f.cleared else f) s

/-- CLEAR EVENTS's own rule. -/
def clearEvents (r : Request) (s : State) : State :=
  match clearArgs? r with
  | none => answer .clearEvents r.seq .format [] s
  | some fs =>
    let t := clearListed fs s
    answer .clearEvents r.seq .ok [statesItem t, itemN 0x73 2 (keptSet fs s)] t

/-- CLEAR_EVENTS. -/
def execClearEvents (r : Request) (s : State) : Host.Outcome State Fault Refusal :=
  rule (takeRequest .clearEvents r.seq (clearEvents r)) s

/-! ## SET EVENT ENABLES -/

/-- The new enable of the flag in a place, if the request carries one (no flag is named twice). -/
def carriedEnable (es : List (Flag × Bool)) (i : Fin 13) : Option Bool :=
  (es.find? fun p => decide (p.1.idx = i)).map Prod.snd

/-- Every carried enable is written, all together (R155). -/
def writeEnables (es : List (Flag × Bool)) (s : State) : State :=
  mapFlags (fun i f => { f with enable := (carriedEnable es i).getD f.enable }) s

/-- SET EVENT ENABLES's own rule. -/
def setEventEnables (r : Request) (s : State) : State :=
  match enableArgs? r with
  | none => answer .setEventEnables r.seq .format [] s
  | some es =>
    let s := writeEnables es s
    answer .setEventEnables r.seq .ok [enablesItem s] s

/-- SET_EVENT_ENABLES. -/
def execSetEventEnables (r : Request) (s : State) : Host.Outcome State Fault Refusal :=
  rule (takeRequest .setEventEnables r.seq (setEventEnables r)) s

/-! ## A request that is not known -/

/-- UNKNOWN_REQUEST: FORMAT, before BUSY and before the power state; code and sequence number echoed (R148,
check 1; R164). -/
def execUnknownRequest (code seq : Byte) (s : State) : Host.Outcome State Fault Refusal :=
  rule (emitControl (.answer { code := code, seq := seq, result := .format, items := [] })) s

end Sys2Proof.Machine
end

