-- ==== Sys2Proof/Machine/Pipes.lean ====
section
/-! DEFINITION. HAND_OVER (R79) and PIPE_COMPLETION (R86), with the pass of a sector (R81 to R85). -/

namespace Sys2Proof.Machine

/-! ## Hand-over -/

/-- The pipe may be handed an entry: IN_SERVICE and idle (R77, R79). -/
def Pipe.ready (p : Pipe) : Bool :=
  p.inService && p.pass.isNone

/-- The tweak of a job's sector (R82). -/
def tweakOf (j : Job) (i : Nat) : Tweak :=
  { lba := j.firstLba + i, ns := j.ns }

/-- The key in a slot that holds one (R88: READY or DRAINING). -/
def SlotState.key? : SlotState → Option LoadedKey
  | .ready _ k => some k
  | .draining k => some k
  | _ => none

/-- The pass context of an entry (R79, step 3, and the working copy of the key, step 4). -/
def passOf (r : ReadyEntry) (j : Job) (k : SlotId) (key : LoadedKey) (s : State) : Pass :=
  { tag := r.tag, index := r.index, buffer := r.buffer, slot := k, size := key.size
    mode := key.mode, direction := j.direction, tweak := tweakOf j r.index
    sectorSize := s.namespaces[j.ns].sectorSize, key := key.block }

/-- The oldest entry is given to a pipe (R79). The event is not taken by a pipe that is busy or out of
service, or on an empty list (log 2); an entry always has a CIPHER job whose slot holds its key (R78,
R88), so the last arms are not reached (log 26). -/
def handOver (p : PipeId) (s : State) : State :=
  if s.pipes[p].ready then
    match s.ready with
    | [] => s
    | r :: rest =>
      match s.jobs[r.tag] with
      | some j =>
        match j.mode with
        | .cipher k =>
          match s.slots[k].state.key? with
          | some key =>
            setPipe p { s.pipes[p] with pass := some (passOf r j k key s) }
              (setBuffer r.buffer { s.buffers[r.buffer] with use := .inPipe }
                (setJob r.tag (some { j with sectorsInPipes := j.sectorsInPipes + 1 })
                  { s with ready := rest }))
          | none => s
        | .fill _ => s
      | none => s
  else s

/-- HAND_OVER. -/
def execHandOver (p : PipeId) (s : State) : Host.Outcome State Fault Refusal :=
  rule (handOver p) s

/-! ## The pass -/

/-- The sector transform on a run of bytes: the same length, the inverse in DECIPHER (R81). -/
def transform (size : KeySize) (key : KeyBlock) (tweak : Tweak) (d : Direction) (data : Bytes) :
    Bytes :=
  let f := Config.sectorCipher size key tweak data.length
  let v : Vector Byte data.length := ⟨data.toArray, by simp⟩
  match d with
  | .encipher => (f v).toList
  | .decipher => (f.symm v).toList

/-- The result of a pass: new data, with the tag field as the buffer is to hold it, or a failing tag
check. -/
inductive PassResult where
  | transformed (data : Bytes) (tag : Option SectorTag)
  | tagFailed
  deriving DecidableEq, Repr

/-- The pass over a buffer (R83 to R85). The stored tag is compared with the tag of the key, the tweak and
the deciphered data (log 9). -/
def passResult (p : Pass) (b : Buffer) : PassResult :=
  let data := transform p.size p.key p.tweak p.direction b.data
  match p.mode, p.direction with
  | .tweak, _ => .transformed data b.tag
  | .tagged, .encipher =>
    .transformed data (some (Config.sectorTag p.size p.key p.tweak b.data))
  | .tagged, .decipher =>
    if b.tag = some (Config.sectorTag p.size p.key p.tweak data) then .transformed data b.tag
    else .tagFailed

/-- A result joins a result hold, which stands in order of index (R15, log 12). -/
def insertHeld (h : HeldResult) : List HeldResult → List HeldResult
  | [] => [h]
  | g :: rest => if h.index < g.index then h :: g :: rest else g :: insertHeld h rest

/-- The index is one the job will still emit: it is ACTIVE, or the index is below its fault index (R14). -/
def Job.keeps (j : Job) (i : Nat) : Bool :=
  match j.state with
  | .active => true
  | .ending k _ => decide (i < k)

/-- The TAG_MISMATCH entry of an extent's fault mask, as it stands (R39). -/
def tagMask (e : ExtentId) (s : State) : MaskEntry :=
  match s.extents[e] with
  | some x => x.policy.maskTagMismatch
  | none => .stop

/-- The Job Unit takes a result (R14, R39). `j` is the job with its sectors in pipes already lowered. A TAG_MISMATCH
stop first frees its buffer (R5) and then ends the job, so a withheld Sector In of the same job takes the buffer and
is dropped under R18; R12 allows either order (DESIGN CHOICE, log 37). -/
def takeResult (p : Pass) (j : Job) (res : PassResult) (s : State) : State :=
  if j.keeps p.index then
    match res with
    | .transformed data tag =>
      setBuffer p.buffer { use := .held, data := data, tag := tag }
        (setJob p.tag
          (some { j with hold := insertHeld { index := p.index, buffer := p.buffer, fill := false } j.hold })
          s)
    | .tagFailed =>
      match tagMask j.extent s with
      | .fill =>
        setBuffer p.buffer { s.buffers[p.buffer] with use := .held }
          (setJob p.tag
            (some { j with hold := insertHeld { index := p.index, buffer := p.buffer, fill := true } j.hold
                           substituted := j.substituted + 1 })
            s)
      | .stop =>
        stopJob p.tag p.index .tagMismatch (releaseBuffer p.buffer (setJob p.tag (some j) s))
  else releaseBuffer p.buffer (setJob p.tag (some j) s)

/-- A pass ends (R86): count, decide, hand over, clear the pipe, and examine the job for closing. The whole result
is made here, from the buffer and the pass context (DESIGN CHOICE, log 35). -/
def completePass (i : PipeId) (s : State) : State :=
  match s.pipes[i].pass with
  | none => s
  | some p =>
    let res := passResult p s.buffers[p.buffer]
    let s := countUse p.slot s
    match s.jobs[p.tag] with
    | none => setPipe i { s.pipes[i] with pass := none } (releaseBuffer p.buffer s)
    | some j =>
      closeIfDone p.tag
        (setPipe i { s.pipes[i] with pass := none }
          (takeResult p { j with sectorsInPipes := j.sectorsInPipes - 1 } res s))

/-- PIPE_COMPLETION. A pipe with no pass completes none (log 2). -/
def execPipeCompletion (p : PipeId) (s : State) : Host.Outcome State Fault Refusal :=
  closingRule (completePass p) s

end Sys2Proof.Machine
end

