-- ==== Sys2Proof/Machine/Power.lean ====
section
/-! DEFINITION. The Power Unit: COLD_START (R157), SELF_CHECK_END (R158), POWER_GOOD_FALLING (R159),
HOLD_RISES (R156, R160), HOLD_FALLS (R156, R163) and DRAIN_TIMER_EXPIRY (R161). The levels of the three
inputs are observed whether or not the part is inert. -/

namespace Sys2Proof.Machine

/-! ## The supply lines -/

/-- The level of a supply line. -/
def lineLevel (l : SupplyLine) (s : State) : Bool :=
  match l with
  | .powerGood => s.powerGood
  | .resetN => s.resetN

/-- A supply line takes a level. -/
def setLine (l : SupplyLine) (v : Bool) (s : State) : State :=
  match l with
  | .powerGood => { s with powerGood := v }
  | .resetN => { s with resetN := v }

/-- Every block takes its cold start value (R157). What has been emitted, the input levels and the queue of
commands are outside the blocks and stay (log 15, log 28). -/
def startCold (s : State) : State :=
  refreshAttn { s with toBlocks := Blocks.coldStart }

/-- A supply line rises: a cold start if both are high now (R157). A line that is high does not rise
(log 25). -/
def raiseLine (l : SupplyLine) (s : State) : State :=
  if lineLevel l s then s
  else
    let s := setLine l true s
    if s.powered then startCold s else s

/-- COLD_START. -/
def execColdStart (l : SupplyLine) (s : State) : Host.Outcome State Fault Refusal :=
  .next (raiseLine l s)

/-! ## Loss of power (R159) -/

/-- Key material is zeroized. -/
def LoadedKey.zeroized (k : LoadedKey) : LoadedKey :=
  { k with block := 0 }

/-- A slot's key material is zeroized, whatever its state or pin count. -/
def Slot.zeroized (v : Slot) : Slot :=
  match v.state with
  | .ready e k => { v with state := .ready e k.zeroized }
  | .draining k => { v with state := .draining k.zeroized }
  | _ => v

/-- A pipe's working copy and intermediate data are zeroized; its pass has ended. -/
def Pipe.zeroized (p : Pipe) : Pipe :=
  { p with pass := none }

/-- The transaction has ended without a report, and no record bytes are left. -/
def LinkMaster.dropped (l : LinkMaster) : LinkMaster :=
  { l with state := .idle, transaction := none, operation := none, freeWait := none }

/-- What R159 zeroizes, in records of which nothing else is defined. -/
def Blocks.zeroized (b : Blocks) : Blocks :=
  { b with slots := Vector.ofFn fun i => b.slots[i].zeroized
           pipes := Vector.ofFn fun i => b.pipes[i].zeroized
           context := WorkingContext.empty
           link := b.link.dropped }

/-- The part stops: what is left in the records is a free value, with all key material zeroized, and ATTN is
not asserted (R159, log 8). -/
def stopPart (s : State) : State :=
  refreshAttn { s with toBlocks := (Config.lostBlocks s.draws).zeroized, draws := s.draws + 1 }

/-- A supply line falls; the part stops if it was running. A line that is low does not fall (log 25). -/
def dropLine (l : SupplyLine) (s : State) : State :=
  if lineLevel l s then
    if s.powered then stopPart (setLine l false s) else setLine l false s
  else s

/-- POWER_GOOD_FALLING. -/
def execPowerGoodFalling (l : SupplyLine) (s : State) : Host.Outcome State Fault Refusal :=
  .next (dropLine l s)

/-! ## Hold entry (R160) -/

/-- The executing request is abandoned: at once where it has no transaction or its transaction waits off the
link, else when the stop of its transaction completes (R135, R160 step 2). -/
def abandonRequest (s : State) : State :=
  if s.executing.isNone then s
  else
    match s.link.transaction with
    | none => requestAbandoned (factsOf s.link.operation) s
    | some x =>
      if s.link.state.holdsLink then
        setLinkMaster { s.link with transaction := some { x with abandoning := true } } s
      else endTransaction { x with abandoning := true } .abandoned .idle s

/-- Hold entry begins (R160). -/
def beginHoldEntry (s : State) : State :=
  let s := abandonRequest { s with power := .quiescing }
  { s with drainTimer := some { remaining := s.drainLimit, captured := s.drainLimit } }

/-- HOLD rises: its level is recorded, and in RUN hold entry begins (R156, R160). A level that is high does
not rise (log 25). -/
def raiseHold (s : State) : State :=
  if s.holdLevel then s
  else
    let s := { s with holdLevel := true }
    if s.powered = true ∧ s.power = .run then lockingStepIfDue (beginHoldEntry s) else s

/-- HOLD_RISES. -/
def execHoldRises (s : State) : Host.Outcome State Fault Refusal :=
  .next (raiseHold s)

/-- HOLD falls: its level is recorded, and in HOLD the state becomes RUN (R156, R163). -/
def dropHold (s : State) : State :=
  if s.holdLevel then
    let s := { s with holdLevel := false }
    if s.powered = true ∧ s.power = .hold then { s with power := .run } else s
  else s

/-- HOLD_FALLS. -/
def execHoldFalls (s : State) : Host.Outcome State Fault Refusal :=
  .next (dropHold s)

/-- The drain timer expires in QUIESCING: every job left is cut, and HOLD_CUT set if there is one (R161). -/
def expireDrain (s : State) : State :=
  if s.power = .quiescing ∧ s.drainTimer.isSome = true then
    let s := { s with drainTimer := none }
    if tableEmpty s then s else setFlag .holdCut (cutJobs (fun _ => true) .cutHold s)
  else s

/-- DRAIN_TIMER_EXPIRY. -/
def execDrainTimerExpiry (s : State) : Host.Outcome State Fault Refusal :=
  closingRule expireDrain s

/-! ## The self-check (R158) -/

/-- A pipe's check has ended, passed or failed. -/
def checkedPipe (passed : Bool) (p : Pipe) : Pipe :=
  { p with checkPending := false, inService := passed }

/-- Some check has still to end. -/
def checksPending (s : State) : Bool :=
  (List.finRange 4).any fun p => s.pipes[p].checkPending

/-- Some pipe passed. -/
def somePipe (s : State) : Bool :=
  (List.finRange 4).any fun p => s.pipes[p].inService

/-- The self-check ends with the last of the four checks (R158, R156). -/
def endSelfCheck (s : State) : State :=
  if checksPending s then s
  else if somePipe s then
    if s.holdLevel then beginHoldEntry { s with power := .run } else { s with power := .run }
  else { s with power := .failed }

/-- A pipe's known-answer check ends in STARTING. A pipe whose check has ended does not end it again
(log 2). -/
def endCheck (p : PipeId) (passed : Bool) (s : State) : State :=
  if s.power = .starting ∧ s.pipes[p].checkPending = true then
    let s := setPipe p (checkedPipe passed s.pipes[p]) s
    endSelfCheck (if passed then s else setFlag .selfCheckFail s)
  else s

/-- SELF_CHECK_END. -/
def execSelfCheckEnd (p : PipeId) (passed : Bool) (s : State) : Host.Outcome State Fault Refusal :=
  closingRule (endCheck p passed) s

end Sys2Proof.Machine
end

