-- ==== Sys2Proof/Machine/SectorJobs.lean ====
section
/-! DEFINITION. SECTOR_IN (R7 to R13), SECTOR_OUT (R16) and UNKNOWN_MESSAGE_TYPE (R164). -/

namespace Sys2Proof.Machine

/-! ## Sector In -/

/-- A stray Sector In is discarded and STRAY is set (R7). -/
def stray (s : State) : State :=
  setFlag .stray s

/-- The mode of the key in a slot that holds one. -/
def SlotState.mode? : SlotState → Option SlotMode
  | .ready _ k => some k.mode
  | .draining k => some k.mode
  | _ => none

/-- A stored tag must be present exactly when the job is DECIPHER and its slot's mode is TAGGED (R9). -/
def wantsStoredTag (j : Job) (k : SlotId) (s : State) : Bool :=
  decide (j.direction = .decipher) && decide (s.slots[k].state.mode? = some .tagged)

/-- A well-formed Sector In of an ACTIVE job for a CIPHER-mode job: it takes a free buffer (R11), is
withheld (R12), or is dropped (R13). -/
def takeSector (t : TagId) (data : Bytes) (stored : Option SectorTag) (s : State) : State :=
  match freeBuffer? s with
  | some b => listSector t data stored b s
  | none =>
    if s.stallOnFull then { s with withheld := some { tag := t, data := data, stored := stored } }
    else overrun t s

/-- A malformed Sector In is discarded and its job stops with FORMAT at its next to receive (R9). -/
def malformedSector (t : TagId) (j : Job) (s : State) : State :=
  closeIfDone t (stopJob t j.nextToReceive .format s)

/-- A Sector In of an ACTIVE job that still expects sectors: R9, then R10 or R11 to R13. -/
def sectorOfActive (t : TagId) (j : Job) (m : SectorInMsg) (s : State) : State :=
  match sectorInBody? m with
  | none => malformedSector t j s
  | some (size, data, stored) =>
    if size ≠ s.namespaces[j.ns].sectorSize then malformedSector t j s
    else
      match j.mode with
      | .fill _ => setJob t (some { j with nextToReceive := j.nextToReceive + 1 }) s
      | .cipher k =>
        if stored.isSome = wantsStoredTag j k s then takeSector t data stored s
        else malformedSector t j s

/-- A Sector In reaches the part: the cases of the table of 1.5, in its order. -/
def deliverSector (m : SectorInMsg) (s : State) : State :=
  match index? 48 m.tag.toNat with
  | none => stray s
  | some t =>
    match s.jobs[t] with
    | none => stray s
    | some j =>
      match j.state with
      | .ending _ _ => s
      | .active =>
        if j.nextToReceive = j.count then stray s else sectorOfActive t j m s

/-- A message of the inbound data channel reaches the part. -/
def deliver (m : DataMsg) (s : State) : State :=
  match m with
  | .sector m => deliverSector m s
  | .unknown => stray s

/-- The data channel is open: no Sector In is withheld and none waits behind one (R12). -/
def channelOpen (s : State) : Bool :=
  s.withheld.isNone && s.inbound.isEmpty

/-- A message arrives on the data channel. Behind a withheld Sector In it stays in the channel, which
delivers in order (R12, log 14). -/
def arriveData (m : DataMsg) (s : State) : State :=
  if channelOpen s then deliver m s else { s with inbound := s.inbound ++ [m] }

/-- SECTOR_IN. -/
def execSectorIn (m : SectorInMsg) (s : State) : Host.Outcome State Fault Refusal :=
  closingRule (arriveData (.sector m)) s

/-! ## Messages of unknown type (R164) -/

/-- The sequence number echoed: the byte at offset 2 (R164); open where the message ends before it
(log 18). -/
def unknownSeq (message : Bytes) : Byte :=
  match message with
  | _ :: _ :: b :: _ => b
  | _ => Config.missingSeq message

/-- UNKNOWN_MESSAGE_TYPE: on the control channel answered with request code 0x00 and FORMAT, on the data
channel stray. -/
def execUnknownMessageType (c : Channel) (message : Bytes) (s : State) :
    Host.Outcome State Fault Refusal :=
  match c with
  | .control =>
    rule
      (emitControl (.answer { code := 0x00, seq := unknownSeq message, result := .format, items := [] }))
      s
  | .data => rule (arriveData .unknown) s

/-! ## Sector Out -/

/-- An index is below the fault index, if the job is ENDING. -/
def Job.emits (j : Job) (i : Nat) : Bool :=
  match j.state with
  | .active => true
  | .ending k _ => decide (i < k)

/-- The fill byte of an extent, as its record stands (R16). -/
def fillByte (e : ExtentId) (s : State) : Byte :=
  match s.extents[e] with
  | some x => x.policy.fillByte
  | none => 0x00

/-- The data of a fill Sector Out (R16). -/
def fillData (j : Job) (s : State) : Bytes :=
  List.replicate s.namespaces[j.ns].sectorSize.bytes (fillByte j.extent s)

/-- The Sector Out of a held result: transformed data with, in TAGGED ENCIPHER, its new tag, or fill
(R16). -/
def heldSectorOut (t : TagId) (j : Job) (h : HeldResult) (s : State) : SectorOutMsg :=
  if h.fill then
    { tag := t, index := h.index, fill := true, data := fillData j s, trailer := none }
  else
    { tag := t, index := h.index, fill := false, data := s.buffers[h.buffer].data
      trailer := if j.direction = .encipher then s.buffers[h.buffer].tag else none }

/-- The result of a job that its next Sector Out carries, if it is ready (R16, CIPHER mode). -/
def readyResult (j : Job) : Option HeldResult :=
  if j.emits j.nextToEmit then j.hold.find? fun h => decide (h.index = j.nextToEmit) else none

/-- A fill is owed and ready (R16, FILL mode). -/
def readyFill (j : Job) : Bool :=
  decide (j.nextToEmit < j.nextToReceive) && j.emits j.nextToEmit

/-- The drive controller accepts a job's ready Sector Out (R16); without one nothing is accepted (log 2). -/
def acceptSector (t : TagId) (s : State) : State :=
  match s.jobs[t] with
  | none => s
  | some j =>
    match j.mode with
    | .fill _ =>
      if readyFill j then
        closeIfDone t
          (setJob t
            (some { j with nextToEmit := j.nextToEmit + 1, substituted := j.substituted + 1 })
            (emitSector
              { tag := t, index := j.nextToEmit, fill := true, data := fillData j s
                trailer := none } s))
      else s
    | .cipher _ =>
      match readyResult j with
      | none => s
      | some h =>
        closeIfDone t
          (releaseBuffer h.buffer
            (setJob t
              (some { j with nextToEmit := j.nextToEmit + 1
                             hold := j.hold.filter fun g => decide (g.index ≠ h.index) })
              (emitSector (heldSectorOut t j h s) s)))

/-- SECTOR_OUT. -/
def execSectorOut (t : TagId) (s : State) : Host.Outcome State Fault Refusal :=
  closingRule (acceptSector t) s

end Sys2Proof.Machine
end

