-- ==== Sys2Proof/Machine/Timers.lean ====
section
/-! DEFINITION. TICK (R138, R142), SET_TICK (R139) and IDLE_EXPIRY (R142 to R144). -/

namespace Sys2Proof.Machine

/-! ## The tick -/

/-- A tick lowers a COUNTING timer by one; at 0 it stays there (R142). -/
def IdleTimer.lowered : IdleTimer → IdleTimer
  | .counting n => .counting (n - 1)
  | t => t

/-- A tick reaches every timer, and the divider starts again from zero (R138). -/
def takeTick (s : State) : State :=
  { s with divider := 0, timers := Vector.ofFn fun i => s.timers[i].lowered }

/-- The divider counts a REFCLK period; the one that completes the selected tick period takes the tick (R138). -/
def countPeriod (s : State) : State :=
  if s.divider + 1 < s.tickPeriod.refclkPeriods then { s with divider := s.divider + 1 } else takeTick s

/-- The divider counts the periods that are left of the tick period, and so reaches it: the periods before the last
pass, and the last one takes the tick (R138; that they pass within the command is a DESIGN CHOICE, log 1). -/
def reachPeriod (s : State) : State :=
  countPeriod { s with divider := s.tickPeriod.refclkPeriods - 1 }

/-- TICK. -/
def execTick (s : State) : Host.Outcome State Fault Refusal :=
  rule reachPeriod s

/-! ## SET TICK -/

/-- A COUNTING timer restarts at its full count (R139, R141). -/
def restarted (x : Option Extent) (t : IdleTimer) : IdleTimer :=
  match x, t with
  | some x, .counting _ => .counting (fullCount x.policy)
  | _, t => t

/-- A carried tick period is written, the divider starts again, and COUNTING timers restart. -/
def applyPeriod (p : Option TickPeriod) (s : State) : State :=
  match p with
  | none => s
  | some p =>
    { s with tickPeriod := p, divider := 0
             timers := Vector.ofFn fun i => restarted s.extents[i] s.timers[i] }

/-- The carried settings are written. -/
def applyTick (a : TickArgs) (s : State) : State :=
  applyPeriod a.period { s with drainLimit := a.drainLimit.getD s.drainLimit }

/-- Both settings as they stand. -/
def tickItems (s : State) : List Item :=
  [item1 0x38 s.tickPeriod.code, itemN 0x39 1 s.drainLimit]

/-- SET TICK's own rule. -/
def setTick (r : Request) (s : State) : State :=
  match tickArgs? r with
  | none => answer .setTick r.seq .format [] s
  | some a =>
    let s := applyTick a s
    answer .setTick r.seq .ok (tickItems s) s

/-- SET_TICK. -/
def execSetTick (r : Request) (s : State) : Host.Outcome State Fault Refusal :=
  rule (takeRequest .setTick r.seq (setTick r)) s

/-! ## Expiry -/

/-- An expiry in LOCK_ONCE (R143, its four steps). -/
def lockIdle (e : ExtentId) (x : Extent) (s : State) : State :=
  let s := setExtent e (some { x with readLock := true, writeLock := true }) s
  let s := if x.policy.forgetOnIdle then releaseExtent .forget e s else s
  setTimer e .disarmed (setFlag .idleLock s)

/-- An expiry in NOTICE_REPEAT (R144). -/
def noticeIdle (e : ExtentId) (x : Extent) (s : State) : State :=
  setTimer e (.counting (fullCount x.policy)) (setFlag .idleNotice s)

/-- The timer of an extent expires: it stands COUNTING at 0 (R142). Any other timer does not (log 2). -/
def expire (e : ExtentId) (s : State) : State :=
  match s.timers[e], s.extents[e] with
  | .counting 0, some x =>
    match x.policy.idleMode with
    | .lockOnce => lockIdle e x s
    | .noticeRepeat => noticeIdle e x s
    | .off => s
  | _, _ => s

/-- IDLE_EXPIRY. -/
def execIdleExpiry (e : ExtentId) (s : State) : Host.Outcome State Fault Refusal :=
  rule (expire e) s

end Sys2Proof.Machine
end

