-- ==== Sys2Proof/Machine/Dispatch.lean ====
section
/-! DEFINITION. exec: one direct call of its meaning for every command, in the order of
spec/opcode_table.json. -/

namespace Sys2Proof.Machine

def exec (i : Instr) (s : State) : Host.Outcome State Fault Refusal :=
  match i with
  | .jobOpener m => Sys2Proof.Machine.execJobOpener m s
  | .sectorIn m => Sys2Proof.Machine.execSectorIn m s
  | .handOver p => Sys2Proof.Machine.execHandOver p s
  | .pipeCompletion p => Sys2Proof.Machine.execPipeCompletion p s
  | .sectorOut t => Sys2Proof.Machine.execSectorOut t s
  | .identify r => Sys2Proof.Machine.execIdentify r s
  | .setNamespace r => Sys2Proof.Machine.execSetNamespace r s
  | .defineExtent r => Sys2Proof.Machine.execDefineExtent r s
  | .retireExtent r => Sys2Proof.Machine.execRetireExtent r s
  | .setPolicy r => Sys2Proof.Machine.execSetPolicy r s
  | .queryExtent r => Sys2Proof.Machine.execQueryExtent r s
  | .querySlot r => Sys2Proof.Machine.execQuerySlot r s
  | .unlock r => Sys2Proof.Machine.execUnlock r s
  | .lock r => Sys2Proof.Machine.execLock r s
  | .rewrap r => Sys2Proof.Machine.execRewrap r s
  | .erase r => Sys2Proof.Machine.execErase r s
  | .generate r => Sys2Proof.Machine.execGenerate r s
  | .setLink r => Sys2Proof.Machine.execSetLink r s
  | .setTick r => Sys2Proof.Machine.execSetTick r s
  | .readEvents r => Sys2Proof.Machine.execReadEvents r s
  | .clearEvents r => Sys2Proof.Machine.execClearEvents r s
  | .setEventEnables r => Sys2Proof.Machine.execSetEventEnables r s
  | .unknownRequest code seq => Sys2Proof.Machine.execUnknownRequest code seq s
  | .unknownMessageType c message => Sys2Proof.Machine.execUnknownMessageType c message s
  | .readRecordEnd received => Sys2Proof.Machine.execReadRecordEnd received s
  | .writeRecordEnd => Sys2Proof.Machine.execWriteRecordEnd s
  | .addressNotAcknowledged => Sys2Proof.Machine.execAddressNotAcknowledged s
  | .pollWaitEnd => Sys2Proof.Machine.execPollWaitEnd s
  | .nackData b => Sys2Proof.Machine.execNackData b s
  | .stretchTimeout p => Sys2Proof.Machine.execStretchTimeout p s
  | .collision p received => Sys2Proof.Machine.execCollision p received s
  | .freeWaitExpiry => Sys2Proof.Machine.execFreeWaitExpiry s
  | .otherMasterStart => Sys2Proof.Machine.execOtherMasterStart s
  | .stopObserved => Sys2Proof.Machine.execStopObserved s
  | .releaseWatchQuiet => Sys2Proof.Machine.execReleaseWatchQuiet s
  | .tick => Sys2Proof.Machine.execTick s
  | .idleExpiry e => Sys2Proof.Machine.execIdleExpiry e s
  | .randomSample => Sys2Proof.Machine.execRandomSample s
  | .warmUpEnd => Sys2Proof.Machine.execWarmUpEnd s
  | .repetitionTestFailure => Sys2Proof.Machine.execRepetitionTestFailure s
  | .coldStart l => Sys2Proof.Machine.execColdStart l s
  | .selfCheckEnd p passed => Sys2Proof.Machine.execSelfCheckEnd p passed s
  | .powerGoodFalling l => Sys2Proof.Machine.execPowerGoodFalling l s
  | .holdRises => Sys2Proof.Machine.execHoldRises s
  | .holdFalls => Sys2Proof.Machine.execHoldFalls s
  | .drainTimerExpiry => Sys2Proof.Machine.execDrainTimerExpiry s
  | .abandonedStopCompletes => Sys2Proof.Machine.execAbandonedStopCompletes s

end Sys2Proof.Machine
end

