-- ==== Sys2Proof/Machine/Step.lean ====
section
/-! DEFINITION. One step of the part: the command at the front of the queue, or what goes on between two
commands (log 1). -/

namespace Sys2Proof.Machine

/-- The next message of the inbound data channel reaches the part once nothing is withheld (R12, log 14). -/
def deliverNext (s : State) : State :=
  match s.withheld, s.inbound with
  | none, m :: rest => lockingStepIfDue (deliver m { s with inbound := rest })
  | _, _ => s

/-- What goes on without a command: a period of REFCLK, a message of the data channel, an element of a
transaction (log 1). -/
def timePasses (s : State) : State :=
  if s.powered then countPeriod (advanceLink (deliverNext s)) else s

/-- One step: the command at the front of the queue is taken; on an empty queue time passes. -/
def step (s : State) : Host.Outcome State Fault Refusal :=
  match s.pending with
  | [] => .next (timePasses s)
  | c :: rest => exec c { s with pending := rest }

/-- The command a word spells, if any, is put at the front of the queue. -/
def State.withFetchWord (s : State) (nbits w : Nat) : State :=
  match Sys2Proof.decodeTableWord nbits w with
  | some c => { s with pending := c :: s.pending }
  | none => s

end Sys2Proof.Machine
end

