-- ==== Sys2Proof/Safety.lean ====
section
/-! DEFINITION. What statements about the part are made of: when a request reaches its own rule, the message
an answer is, and the invariants that every step keeps. -/

namespace Sys2Proof.Machine

/-! ## When a request reaches its own rule (R148, R149) -/

/-- The part has power and no request executes: the four requests of R149 are taken. -/
def Listens (s : State) : Prop :=
  s.powered = true ∧ s.executing = none

/-- And the power state is RUN: every request is taken. -/
def Accepts (s : State) : Prop :=
  Listens s ∧ s.power = .run

/-! ## Messages -/

/-- The Management Answer to a request of a name (R147). -/
def answerTo (n : RequestName) (r : Request) (result : ResultCode) (items : List Item) : ControlMsg :=
  .answer { code := n.code, seq := r.seq, result := result, items := items }

/-- A state in which one more message has left on the outbound control channel, and nothing else is
changed. -/
def sent (m : ControlMsg) (s : State) : State :=
  { s with outControl := s.outControl ++ [m] }

/-! ## What the job commands meet and leave -/

/-- The Closer of a refusal (R34). -/
def refusedCloser (tag : Byte) (c : Condition) (e : Option ExtentId) : ControlMsg :=
  .closer { tag := tag, outcome := .refused, cause := some (.condition c), extent := e
            emitted := 0, substituted := 0, faultIndex := none }

/-- The opener passes checks 1 to 7 onto a DEFINED extent. -/
def reachesExtent (m : OpenerMsg) (o : Opener) (e : ExtentId) (x : Extent) (s : State) : Prop :=
  s.powered = true ∧ openerFields? m = some o ∧ s.jobs[o.tag] = none ∧ s.power = .run ∧
    o.firstLba + o.count - 1 < s.namespaces[o.ns].size ∧ e = extentAt o.ns o.firstLba s ∧
    spanWithin o.ns o.firstLba (o.firstLba + o.count - 1) s = true ∧ s.extents[e] = some x

/-- The first of checks 9 to 11 to apply to an extent that is not barred. -/
def maskable (d : Direction) (x : Extent) : Option FillCondition :=
  if (match d with | .encipher => x.writeLock | .decipher => x.readLock) then some .locked
  else
    match x.key with
    | .erased => some .keyErased
    | .none => some .keyAbsent
    | .live _ => none

/-- A new job record (R2). -/
def freshJob (o : Opener) (e : ExtentId) (mode : JobMode) : Job :=
  { direction := o.direction, ns := o.ns, firstLba := o.firstLba, count := o.count, extent := e
    mode := mode, state := .active, nextToReceive := 0, nextToEmit := 0, sectorsInPipes := 0
    hold := [], substituted := 0 }

/-- A Sector In reaches the part at once: nothing is withheld and nothing waits behind it. -/
def channelClear (s : State) : Prop :=
  s.powered = true ∧ s.withheld = none ∧ s.inbound = []

/-- The Sector In is one that an ACTIVE job's next index takes. -/
def expectsSector (m : SectorInMsg) (t : TagId) (j : Job) (s : State) : Prop :=
  channelClear s ∧ m.tag.toNat = t.val ∧ s.jobs[t] = some j ∧ j.state = .active ∧
    j.nextToReceive ≠ j.count

/-- A well-formed Sector In of an ACTIVE CIPHER-mode job carries a stored tag exactly where its job is
DECIPHER and its slot's key TAGGED. -/
def wellFormedFor (m : SectorInMsg) (j : Job) (k : SlotId) (data : Bytes)
    (tag : Option SectorTag) (s : State) : Prop :=
  j.mode = .cipher k ∧ sectorInBody? m = some (s.namespaces[j.ns].sectorSize, data, tag) ∧
    (tag.isSome = true ↔ j.direction = .decipher ∧ s.slots[k].state.mode? = some .tagged)

/-- The job becomes ENDING at an index: its listed and held sectors from there on are dropped and their
buffers freed, and it stays while a sector of it is in a pipe or is still to be emitted. -/
def endedAt (t : TagId) (j : Job) (k : Nat) (why : EndReason) (s : State) : State :=
  { s with
    jobs := s.jobs.set t
      (some { j with state := .ending k why, hold := j.hold.filter fun h => decide (h.index < k) })
    ready := s.ready.filter fun r => !(decide (r.tag = t) && decide (k ≤ r.index))
    buffers := Vector.ofFn fun b =>
      if (s.ready.any fun r => decide (r.tag = t) && decide (k ≤ r.index) && decide (r.buffer = b)) ||
          (j.hold.any fun h => decide (k ≤ h.index) && decide (h.buffer = b))
      then { use := .free, data := [], tag := none } else s.buffers[b] }

/-- The usage counter of the pinned slot rises by one and saturates; a slot that reaches its nonzero limit
becomes worn and KEY_WORN is set, once. -/
def countedUse (k : SlotId) (s : State) : State :=
  let v := s.slots[k]
  let n := min (v.usage + 1) (2 ^ 48 - 1)
  if v.limit ≠ 0 ∧ n = v.limit ∧ v.usage < n ∧ v.worn = false then
    setFlag .keyWorn { s with slots := s.slots.set k { v with usage := n, worn := true } }
  else { s with slots := s.slots.set k { v with usage := n } }

/-- A buffer becomes FREE; a withheld Sector In takes it in the same rule, and joins the Ready Sector List at
its end with its job's next to receive (R5, R12). -/
def freed (b : BufferId) (s : State) : State :=
  let empty : Buffer := { use := .free, data := [], tag := none }
  match s.withheld with
  | none => { s with buffers := s.buffers.set b empty }
  | some w =>
    match s.jobs[w.tag] with
    | none => { s with withheld := none, buffers := s.buffers.set b empty }
    | some v =>
      { s with
        withheld := none
        buffers := s.buffers.set b { use := .listed, data := w.data, tag := w.stored }
        ready := s.ready ++ [{ tag := w.tag, index := v.nextToReceive, buffer := b }]
        jobs := s.jobs.set w.tag (some { v with nextToReceive := v.nextToReceive + 1 }) }

/-! ## Idle timers (R140) -/

/-- The timer that R140 gives an extent, where a count that starts does so at its full count. -/
def freshTimer (x : Extent) (jobs : Nat) : IdleTimer :=
  if x.key.isLive = true ∧ ¬(x.readLock = true ∧ x.writeLock = true) ∧ x.policy.idleMode ≠ .off then
    if 0 < jobs then .suspended else .counting (fullCount x.policy)
  else .disarmed

/-- The timer that R140 gives an extent, where a count that goes on keeps its remaining count (R141). -/
def keptTimer (x : Extent) (jobs : Nat) (t : IdleTimer) : IdleTimer :=
  match freshTimer x jobs, t with
  | .counting _, .counting n => .counting n
  | u, _ => u

/-! ## Jobs that close (R20) -/

/-- A job has emitted all it will emit, and no sector of it is in a pipe. -/
def emittedAll (j : Job) : Prop :=
  j.sectorsInPipes = 0 ∧
    match j.state with
    | .active => j.nextToEmit = j.count
    | .ending k _ => j.nextToEmit = k

/-- A slot of which one pin is released: DRAINING, the last pin makes it EMPTY. -/
def unpinnedSlot (v : Slot) : Slot :=
  match v.state with
  | .draining _ =>
    if v.pins ≤ 1 then
      { state := .empty, pins := 0, usage := 0, limit := 0, stopAtLimit := false, worn := false }
    else { v with pins := v.pins - 1 }
  | _ => { v with pins := v.pins - 1 }

/-- A Closer has left; JOB_FAULT is set where it carries a condition for an extent that reports conditions. -/
def closerSent (c : Closer) (x : Extent) (s : State) : State :=
  match c.cause, x.policy.reportConditions with
  | some (.condition _), true => setFlag .jobFault (sent (.closer c) s)
  | _, _ => sent (.closer c) s

/-- A job has closed with a Closer, and no drain that a request waits for has ended with it. -/
def closedWith (c : Closer) (t : TagId) (j : Job) (x : Extent) (s : State) : State :=
  { closerSent c x s with
    jobs := s.jobs.set t none
    slots :=
      match j.mode with
      | .cipher k => s.slots.set k (unpinnedSlot s.slots[k])
      | .fill _ => s.slots
    timers :=
      if jobsNaming j.extent s = 1 then s.timers.set j.extent (freshTimer x 0) else s.timers }

/-- The slot whose drain ends where a job closes, if it does: its DRAINING slot has no other pin. -/
def drainOf (j : Job) (s : State) : Option SlotId :=
  match j.mode with
  | .fill _ => none
  | .cipher k =>
    match s.slots[k].state with
    | .draining _ => if s.slots[k].pins ≤ 1 then some k else none
    | _ => none

/-! ## Cuts (R19) -/

/-- The record of a job that is cut: ENDING at its next to emit, unless a cut had ended it before (R3). -/
def cutOff (r : CutReason) (j : Job) : Job :=
  match j.state with
  | .ending _ (.cut _) => j
  | _ =>
    { j with
      state := .ending j.nextToEmit (.cut r)
      hold := j.hold.filter fun h => decide (h.index < j.nextToEmit) }

/-- The job is one a cut names and that no cut had ended before. -/
def newlyCut (named : Job → Bool) (j : Job) : Bool :=
  named j &&
    match j.state with
    | .ending _ (.cut _) => false
    | _ => true

/-- The Ready Sector List entry is one that a cut drops. -/
def cutEntry (named : Job → Bool) (s : State) (r : ReadyEntry) : Bool :=
  match s.jobs[r.tag] with
  | some j => newlyCut named j && decide (j.nextToEmit ≤ r.index)
  | none => false

/-- The buffers that a cut makes FREE, in the order of log 13: the jobs by ascending tag, and of each its listed
sectors and then its held ones. -/
def cutBuffers (named : Job → Bool) (s : State) : List BufferId :=
  (List.finRange 48).flatMap fun t =>
    match s.jobs[t] with
    | some j =>
      if newlyCut named j then
        ((s.ready.filter fun r => decide (r.tag = t) && decide (j.nextToEmit ≤ r.index)).map
            ReadyEntry.buffer)
          ++ (j.hold.filter fun h => decide (j.nextToEmit ≤ h.index)).map HeldResult.buffer
      else []
    | none => []

/-- The job under a tag closes in the cut's own rule. -/
def cutCloses (named : Job → Bool) (r : CutReason) (s : State) (t : TagId) : Option Job :=
  match s.jobs[t] with
  | some j => if named j && (cutOff r j).finished then some (cutOff r j) else none
  | none => none

/-- The number of pins of a slot that a cut releases. -/
def cutPins (named : Job → Bool) (r : CutReason) (k : SlotId) (s : State) : Nat :=
  (List.finRange 48).countP fun t =>
    match cutCloses named r s t with
    | some j => decide (j.mode = .cipher k)
    | none => false

/-! ## The link (R123, R124, R134) -/

/-- The Link Master looks at the tracking value for a transaction whose attempt begins (R124). -/
def attempting (x : Transaction) (l : LinkMaster) : LinkMaster :=
  { l with
    state := if l.tracking = .free then .start else .waitFree
    transaction := some
      { x with
        position := .address, stopCause := .final, phase := 0
        record :=
          match x.kind with
          | .readRecord => []
          | .writeRecord => x.record }
    freeWait := if l.tracking = .free then none else some l.settings.freeWaitLimit }

/-- The elements of a transaction in which nothing fails, in their order (R125, R126). -/
def elementsOf : TransactionKind → List LinkPoint
  | .readRecord =>
    [.openingStart, .writeAddress, .handleByte, .repeatedStart, .readAddress]
      ++ (List.finRange 100).map .receiveByte ++ [.finalStop]
  | .writeRecord =>
    [.openingStart, .writeAddress, .handleByte] ++ (List.finRange 100).map .dataByte ++ [.finalStop]

/-- A transaction with a fresh context; a READ RECORD has received no byte yet. -/
def freshContext (kind : TransactionKind) (h : Handle) (record : Bytes) : Transaction :=
  { kind := kind, handle := h, record := record, position := .address, lossCount := 0
    addressAttempts := 0, writeBegun := false, finalStopSent := false, abandoning := false
    stopCause := .final, phase := 0 }

/-- READ RECORD of a handle has been asked for. -/
def askedRead (h : Handle) (l : LinkMaster) : LinkMaster :=
  attempting (freshContext .readRecord h []) l

/-- A write operation of a record at a handle has been asked for. -/
def askedWrite (h : Handle) (r : KeyRecord) (l : LinkMaster) : LinkMaster :=
  { attempting (freshContext .writeRecord h (recordBytes r)) l with
    operation :=
      some { bytes := r, writeBegun := false, finalStopSent := false, verified := false } }

/-- The Link Master rests in a state with no transaction and no write operation. -/
def rested (st : LinkState) (t : Tracking) (watch : Bool) (l : LinkMaster) : LinkMaster :=
  { l with state := st, transaction := none, operation := none, freeWait := none, tracking := t
           releaseWatch := watch }

/-- The transaction in progress is of a kind, is not being abandoned and can meet an element. -/
def inProgress (kind : TransactionKind) (x : Transaction) (p : LinkPoint) (s : State) : Prop :=
  s.powered = true ∧ s.link.transaction = some x ∧ x.kind = kind ∧ canMeet s.link x p = true

/-- The write facts reached in a transaction: those of its operation, with those of a WRITE RECORD in their place
(R123, R134); without an operation no write has begun. -/
def factsReached (x : Transaction) (o : Option WriteOperation) : WriteFacts :=
  match o with
  | none => { writeBegun := false, finalStopSent := false, verified := false }
  | some o =>
    if x.kind = .writeRecord then
      { writeBegun := x.writeBegun, finalStopSent := x.finalStopSent, verified := o.verified }
    else o.toWriteFacts

/-- A transaction that has got to an element: a WRITE RECORD past its opening start has begun (R126, log 4). -/
def metAt (p : LinkPoint) (x : Transaction) : Transaction :=
  { x with
    writeBegun := x.writeBegun || (decide (x.kind = .writeRecord) && decide (p ≠ .openingStart)) }

/-- How the transaction in progress ends with a LINK failure code: the code, the transaction as it stood, and the
state, tracking value and release watch that are left. -/
structure LinkEnd where
  code : LinkFailure
  transaction : Transaction
  rest : LinkState
  tracking : Tracking
  watch : Bool
  deriving DecidableEq, Repr

/-- The code already decided in the stops of R127 and R128, and any other element's own code. -/
def decidedOr (f : LinkFailure) (x : Transaction) : LinkPoint → LinkFailure
  | .nackStop => .nackData
  | .addressStop => if x.addressAttempts = 23 then .noDevice else f
  | _ => f

/-- A command ends the transaction `x` in progress with a LINK failure code: the 24th unacknowledged address, an
unacknowledged byte, a stretch beyond the limit, the expiry of the free-wait timer, and a collision in a stop whose
result is decided or with a loss count of 3, but not one in which a READ RECORD is complete (R124, R127 to R132).
Address attempts of a failed transaction count the address that failed. -/
def failsBy (s : State) (x : Transaction) (c : Instr) (f : LinkEnd) : Prop :=
  s.powered = true ∧ s.link.transaction = some x ∧
    ((c = .addressNotAcknowledged ∧ canMeet s.link x .addressStop = true ∧ x.addressAttempts = 23 ∧
        f = ⟨.noDevice, metAt .addressStop x, .idle, .free, false⟩) ∨
      (∃ b, c = .nackData b ∧ canMissAck s.link x b = true ∧
        f = ⟨.nackData, metAt (nackedElement b) x, .idle, .free, false⟩) ∨
      (∃ p, c = .stretchTimeout p ∧ canMeet s.link x p = true ∧
        f = ⟨decidedOr .stretchTimeout x p, metAt p x, .waitFree, .busyOther, true⟩) ∨
      (c = .freeWaitExpiry ∧ s.link.state = .waitFree ∧ s.link.freeWait.isSome = true ∧
        f = ⟨.linkStuck, x, .idle, s.link.tracking, s.link.releaseWatch⟩) ∨
      (∃ p r, c = .collision p r ∧ canMeet s.link x p = true ∧ checksLine s.link x p = true ∧
        (p = .nackStop ∨ (p = .addressStop ∧ x.addressAttempts = 23) ∨ x.lossCount = 3) ∧
        (x.kind = .readRecord → p ≠ .finalStop ∧ p ≠ .receiveByte 99) ∧
        f = ⟨decidedOr .lost x p, metAt p x, .idle, .busyOther, s.link.releaseWatch⟩))

/-- The part in which a transaction has ended with a LINK failure code: LINK_FAIL is set (R134). -/
def linkFailed (f : LinkEnd) (s : State) : State :=
  setFlag .linkFail { s with link := rested f.rest f.tracking f.watch s.link }

/-! ## Requests that end or are refused -/

/-- The executing request has ended with an answer: its slot is empty and the working context is zeroized
(R93, R148). -/
def ended (n : RequestName) (seq : Byte) (result : ResultCode) (items : List Item) (s : State) :
    State :=
  { s with
    executing := none
    context := { credential := none, newCredential := none, wrappingKeys := [], recordRead := none
                 recordBuilt := none, key := none }
    outControl := s.outControl ++
      [.answer { code := n.code, seq := seq, result := result, items := items }] }

/-- The executing request has ended ABANDONED with the write facts reached: a slot allocated to it is EMPTY, and
the store stale of an ERASE is settled by its write phase (R97, R106, R114, R117). -/
def abandonedAs (facts : WriteFacts) (s : State) : State :=
  let empty : Slot :=
    { state := .empty, pins := 0, usage := 0, limit := 0, stopAtLimit := false, worn := false }
  match s.executing with
  | none => s
  | some { seq, request := .unlock _ _ none } => ended .unlock seq .abandoned [] s
  | some { seq, request := .unlock _ _ (some k) } =>
    ended .unlock seq .abandoned [] { s with slots := s.slots.set k empty }
  | some { seq, request := .rewrap _ _ } =>
    ended .rewrap seq .abandoned [item1 0x60 facts.phase.code] s
  | some { seq, request := .generate _ _ k } =>
    ended .generate seq .abandoned [item1 0x60 facts.phase.code]
      { s with slots := s.slots.set k empty }
  | some { seq, request := .erase e _ written } =>
    let phase :=
      match written with
      | some w => w.facts.phase
      | none => facts.phase
    let stale := decide (phase ≠ .verified)
    let t : State :=
      { s with extents := s.extents.set e (s.extents[e].map fun x => { x with storeStale := stale }) }
    ended .erase seq .abandoned [staleItem e t, item1 0x60 phase.code]
      (if stale then setFlag .storeStale t else t)

/-- The items a request requires (12.2). -/
def requiredItems : RequestName → List Nat
  | .setNamespace => [0x02, 0x03, 0x04]
  | .defineExtent => [0x01, 0x04, 0x05, 0x06]
  | .unlock => [0x20, 0x23]
  | .lock => [0x23, 0x24, 0x25]
  | .rewrap => [0x21, 0x22]
  | .erase => [0x25]
  | .generate => [0x20, 0x23, 0x26, 0x27]
  | .clearEvents => [0x40]
  | .setEventEnables => [0x41]
  | _ => []

/-- The items a request may carry besides (12.2). -/
def optionalItems : RequestName → List Nat
  | .defineExtent => List.range' 0x10 14
  | .setPolicy => List.range' 0x10 14
  | .setLink => [0x30, 0x31, 0x32, 0x33, 0x34]
  | .setTick => [0x38, 0x39]
  | _ => []

/-- The bound on a request's target, where it uses one (12.2). -/
def targetBound : RequestName → Option Nat
  | .setNamespace => some 4
  | .defineExtent | .retireExtent | .setPolicy | .queryExtent | .unlock | .lock | .rewrap | .erase
  | .generate => some 24
  | .querySlot => some 32
  | _ => none

/-- The sizes of the items requests carry (12.2). -/
def sizeOfItem (code len : Nat) : Prop :=
  if code = 0x02 ∨ code = 0x1C then len = 6
  else if code = 0x05 ∨ code = 0x06 then len = 5
  else if code = 0x19 then len = 2
  else if code = 0x20 ∨ code = 0x21 ∨ code = 0x22 then len = 32
  else if code = 0x40 then 1 ≤ len ∧ len ≤ 13
  else if code = 0x41 then 2 ≤ len ∧ len ≤ 26 ∧ len % 2 = 0
  else len = 1

/-- The values of the items requests carry (12.2), in the ranges the rules that own them give: the number an
item's bytes spell, or the flag codes of its bytes (13 flags). Directions with none named are out of range in
every rule that reads them (R94, R100, R115). -/
def itemInRange (code : Nat) (value : Bytes) : Prop :=
  let v := beNat value
  if code = 0x01 then v ≤ 3
  else if code = 0x02 then v ≤ 2 ^ 40
  else if code = 0x04 then v ≤ 63
  else if code = 0x10 then 1 ≤ v ∧ v ≤ 15
  else if code = 0x18 then v ≤ 2
  else if code = 0x19 then 1 ≤ v ∧ v ≤ 4095
  else if code = 0x23 then 1 ≤ v ∧ v ≤ 3
  else if code = 0x31 then v ≤ 0x7F
  else if code = 0x32 then 1 ≤ v ∧ v ≤ 64
  else if code = 0x33 then 10 ≤ v ∧ v ≤ 250
  else if code = 0x38 then 1 ≤ v ∧ v ≤ 8
  else if code = 0x39 then 1 ≤ v ∧ v ≤ 255
  else if code ∈ [0x11, 0x12, 0x13, 0x14, 0x1A, 0x25, 0x26, 0x27, 0x30] then 1 ≤ v ∧ v ≤ 2
  else if code ∈ [0x03, 0x16, 0x17, 0x1B, 0x1D, 0x24, 0x34] then v ≤ 1
  else if code = 0x40 then ∀ b ∈ value, 1 ≤ b.toNat ∧ b.toNat ≤ 13
  else if code = 0x41 then
    (∀ i : Nat, 2 * i + 1 < value.length →
      1 ≤ (value.getD (2 * i) 0).toNat ∧ (value.getD (2 * i) 0).toNat ≤ 13 ∧
        (value.getD (2 * i + 1) 0).toNat ≤ 1) ∧
      ∀ i j : Nat, i < j → 2 * j + 1 < value.length →
        value.getD (2 * i) 0 ≠ value.getD (2 * j) 0
  else True

/-- A request carries an item of a code whose bytes spell a number. -/
def carries (r : Request) (code v : Nat) : Prop :=
  ∃ i ∈ r.items, i.code.toNat = code ∧ beNat i.value = v

/-- A field that may be carried: its item where it is, and no item of its code where it is not. -/
def mayCarry (r : Request) (code : Nat) (v : Option Nat) : Prop :=
  match v with
  | some n => carries r code n
  | none => ∀ i ∈ r.items, i.code.toNat ≠ code

/-- The directions item (12.2). -/
def directionsCode (d : Directions) : Nat :=
  (if d.read then 1 else 0) + (if d.write then 2 else 0)

/-- The yes or no of an item, as the number its byte spells. -/
def yesNoCode (b : Bool) : Nat :=
  (boolCode b).toNat

/-- The policy items of a request (12.2). -/
def carriesPolicy (r : Request) (u : PolicyUpdate) : Prop :=
  mayCarry r 0x10 u.tryLimit ∧ mayCarry r 0x11 (u.maskLocked.map fun m => m.code.toNat) ∧
    mayCarry r 0x12 (u.maskKeyErased.map fun m => m.code.toNat) ∧
    mayCarry r 0x13 (u.maskKeyAbsent.map fun m => m.code.toNat) ∧
    mayCarry r 0x14 (u.maskTagMismatch.map fun m => m.code.toNat) ∧
    mayCarry r 0x15 (u.fillByte.map fun b => b.toNat) ∧
    mayCarry r 0x16 (u.reportConditions.map yesNoCode) ∧
    mayCarry r 0x17 (u.lockOnHold.map yesNoCode) ∧
    mayCarry r 0x18 (u.idleMode.map fun m => m.code.toNat) ∧ mayCarry r 0x19 u.idleCount ∧
    mayCarry r 0x1A (u.idleStep.map fun m => m.code.toNat) ∧
    mayCarry r 0x1B (u.forgetOnIdle.map yesNoCode) ∧ mayCarry r 0x1C u.usageLimit ∧
    mayCarry r 0x1D (u.stopAtLimit.map yesNoCode)

/-- A request that 12.2 and R165 make malformed: a target above its bound, an unknown item code, an item given
twice, a required item missing, an item of the wrong size or out of its range, or no item where at least one
is required. -/
def malformed (n : RequestName) (r : Request) : Prop :=
  (∃ b, targetBound n = some b ∧ b ≤ r.target.toNat) ∨
  (∃ i ∈ r.items, i.code.toNat ∉ requiredItems n ++ optionalItems n) ∨
  ¬(r.items.map Item.code).Nodup ∨
  (∃ c ∈ requiredItems n, ∀ i ∈ r.items, i.code.toNat ≠ c) ∨
  (∃ i ∈ r.items, ¬sizeOfItem i.code.toNat i.value.length) ∨
  (∃ i ∈ r.items, ¬itemInRange i.code.toNat i.value) ∨
  (r.items = [] ∧ (n = .setPolicy ∨ n = .setLink ∨ n = .setTick))

/-- A request that 12.2 and R165 make whole: not malformed, its items in ascending order of code (log 16), and its
target 0xFF where it uses none (log 17). -/
def whole (n : RequestName) (r : Request) : Prop :=
  ¬malformed n r ∧ (r.items.map fun i => i.code.toNat).Pairwise (· < ·) ∧
    (targetBound n = none → r.target = 0xFF)

/-- A LIVE extent names a READY slot that is bound to it (R62). -/
def boundSlot (e : ExtentId) (x : Extent) (s : State) : Prop :=
  ∀ k, x.key = .live k → ∃ key, s.slots[k].state = .ready e key

/-- The slots after a release: the slot of a LIVE extent is EMPTY without pins and DRAINING with them (R64). -/
def releasedSlots (x : Extent) (s : State) : Vector Slot 32 :=
  match x.key with
  | .live k =>
    match s.slots[k].state with
    | .ready _ key =>
      s.slots.set k
        (if s.slots[k].pins = 0 then
          { state := .empty, pins := 0, usage := 0, limit := 0, stopAtLimit := false, worn := false }
        else { s.slots[k] with state := .draining key })
    | _ => s.slots
  | _ => s.slots

/-- The slot a release leaves DRAINING, if any. -/
def drainingSlot (x : Extent) (s : State) : Option SlotId :=
  match x.key with
  | .live k => if s.slots[k].pins = 0 then none else some k
  | _ => none

/-! ## Invariants -/

/-- ATTN is asserted exactly while the part has power and some flag is SET and enabled (R152). -/
def AttnFollowsFlags (s : State) : Prop :=
  s.attn = true ↔
    s.powerGood = true ∧ s.resetN = true ∧
      ∃ i : Fin 13, s.flags[i].isSet = true ∧ s.flags[i].enable = true

/-- The request whose credential is being tried names a DEFINED extent that is not barred (R94, R103). -/
def tryingUnbarred (s : State) : Prop :=
  ∀ seq r e, s.executing = some { seq := seq, request := r } →
    ((∃ d k, r = .unlock e d k) ∨ r = .rewrap e false) →
      ∃ x, s.extents[e] = some x ∧ x.barred = false

/-- While the part has power, no extent has more tries than its limit, and an extent is barred exactly at its
limit (R46). -/
def TriesWithinLimit (s : State) : Prop :=
  s.powered = true →
    tryingUnbarred s ∧
      ∀ (e : ExtentId) (x : Extent), s.extents[e] = some x →
        1 ≤ x.policy.tryLimit ∧ x.tryCount ≤ x.policy.tryLimit ∧
          (x.barred = true ↔ x.tryCount = x.policy.tryLimit)

/-- While the power state is HOLD: no job, no executing request, and every extent with lock on hold has both
locks set and no key (R162). -/
def HeldPartIsLocked (s : State) : Prop :=
  s.powered = true → s.power = .hold →
    (∀ t : TagId, s.jobs[t] = none) ∧ s.executing = none ∧
      ∀ (e : ExtentId) (x : Extent), s.extents[e] = some x → x.policy.lockOnHold = true →
        x.readLock = true ∧ x.writeLock = true ∧ x.key.isLive = false

end Sys2Proof.Machine
end

