-- ==== Sys2Proof/Certificates/Slice0/Obligations.lean ====
section
/-! DEFINITION. The statements for the provers. A result is written as the state before with the fields that
change, so that every field not named is stated to stay as it was. -/

section

open Sys2Proof Sys2Proof.Machine

/-! ## Steps -/

/-- A step takes the command at the front of the queue and runs it on the state with the queue's rest. -/
def Obligations.StepRunsFrontCommand : Prop :=
  ∀ (c : Instr) (rest : List Instr) (s : State), s.pending = c :: rest →
    step s = exec c { s with pending := rest }

/-- On an empty queue a step answers next. An inert part does not change. In a running one the step delivers the
message that waits at the front of the data channel once nothing is withheld, taken as the commands take it, goes on
by one step on the lines of the link, and counts a REFCLK period in the divider; the one that completes the tick
period takes a tick. Who does this when, into how many steps an element is cut, and where the messages wait, is the
model's choice (logs 1, 4, 14 and 33). With the last step of an element the next one follows in the order of R125 and
R126, and a WRITE RECORD has begun. A received byte is placed at the end of the record: a free value (log 5). A byte
that the part has sent is acknowledged or not: a free value too (log 22; both are taken at the model's counter draws,
log 10); where it is not, the part makes a stop. A transaction does not advance off the link, and not beyond its stop,
and nothing else of the part changes with it. -/
def Obligations.EmptyQueueLetsTimePass : Prop :=
  (∀ s : State, s.pending = [] →
    let counted (t : State) : State :=
      if t.divider + 1 < t.tickPeriod.refclkPeriods then { t with divider := t.divider + 1 }
      else
        { t with
          divider := 0
          timers := Vector.ofFn fun e =>
            match t.timers[e] with
            | .counting n => .counting (n - 1)
            | x => x }
    (s.powered = false → step s = .next s) ∧
    (s.powered = true → s.inbound = [] ∨ s.withheld.isSome = true →
      step s = .next (counted (advanceLink s))) ∧
    (∀ m rest, s.powered = true → s.withheld = none → s.inbound = m :: rest →
      step s =
        .next (counted (advanceLink (lockingStepIfDue (deliver m { s with inbound := rest })))))) ∧
  (∀ (m : SectorInMsg) (s : State), channelClear s →
    exec (.sectorIn m) s = .next (lockingStepIfDue (deliver (.sector m) s))) ∧
  (∀ s : State, deliver .unknown s = setFlag .stray s) ∧
  (∀ s : State,
    (∀ x, s.link.transaction = some x → s.link.state.holdsLink = false) → advanceLink s = s) ∧
  (∀ (s : State) (x : Transaction),
    s.link.transaction = some x → s.link.state.holdsLink = true →
    let steps := (elementLines s.link x (currentElement s.link x)).length
    (x.phase + 1 < steps →
      advanceLink s =
        { s with link := { s.link with transaction := some { x with phase := x.phase + 1 } } }) ∧
    (steps ≤ x.phase + 1 → s.link.state = .stop → advanceLink s = s)) ∧
  ∀ (s : State) (x : Transaction) (i : Nat) (p q : LinkPoint),
    s.link.transaction = some x → x.abandoning = false →
    (elementsOf x.kind)[i]? = some p → (elementsOf x.kind)[i + 1]? = some q →
    placeOf p = (s.link.state, x.position) → (elementLines s.link x p).length ≤ x.phase + 1 →
    let begun := x.writeBegun || decide (x.kind = .writeRecord)
    let goesOn (record : Bytes) : LinkMaster :=
      { s.link with
        state := (placeOf q).1
        transaction := some
          { x with
            position := (placeOf q).2, record := record, writeBegun := begun, stopCause := .final
            phase := 0 } }
    let stopsFor (cause : StopCause) : LinkMaster :=
      { s.link with
        state := .stop
        transaction := some { x with writeBegun := begun, stopCause := cause, phase := 0 } }
    let answered (cause : StopCause) : State :=
      { s with
        draws := s.draws + 1
        link := if Config.deviceAcknowledges s.draws then goesOn x.record else stopsFor cause }
    advanceLink s =
      match p with
      | .receiveByte _ =>
        { s with
          draws := s.draws + 1, link := goesOn (x.record ++ [Config.receivedByte s.draws]) }
      | .writeAddress => answered .address
      | .readAddress => answered .address
      | .handleByte => answered .nack
      | .dataByte _ => answered .nack
      | _ => { s with link := goesOn x.record }

/-- Every command answers a next state in every state, and leaves the queue alone. While a supply line is low the
part takes nothing: only the levels of its input lines are followed. -/
def Obligations.NoCommandStopsThePart : Prop :=
  (∀ (c : Instr) (s : State), ∃ t : State, exec c s = .next t ∧ t.pending = s.pending) ∧
  ∀ (c : Instr) (s : State), s.powered = false →
    match c with
    | .coldStart _ => True
    | .powerGoodFalling .powerGood => exec c s = .next { s with powerGood := false }
    | .powerGoodFalling .resetN => exec c s = .next { s with resetN := false }
    | .holdRises => exec c s = .next { s with holdLevel := true }
    | .holdFalls => exec c s = .next { s with holdLevel := false }
    | _ => exec c s = .next s

/-! ## Formats -/

/-- A Management Request read back from its bytes is the command it was made from, with every operand. -/
def Obligations.RequestsReadBackFromBytes : Prop :=
  ∀ (n : RequestName) (r : Request), r.wellFormed = true →
    decodeControl (encodeRequest n r) = Instr.ofRequest n r

/-- Job Openers and Sector In read back from their bytes are the commands they were made from. A Job Opener
is 12 bytes, a Job Closer 14, a key record 100, and the VOID record 100 zero bytes. -/
def Obligations.JobMessagesReadBackFromBytes : Prop :=
  (∀ m : OpenerMsg, m.length = 12 →
    (encodeOpener m).length = 12 ∧ decodeControl (encodeOpener m) = .jobOpener m) ∧
  (∀ m : SectorInMsg, decodeData (encodeSectorIn m) = .sectorIn m) ∧
  (∀ c : Closer, c.bytes.length = 14 ∧ c.bytes.take 3 = [0x22, c.tag, c.outcome.code]) ∧
  (∀ r : KeyRecord, (recordBytes r).length = 100) ∧
  recordBytes voidRecord = List.replicate 100 0

/-! ## Job Openers -/

/-- An opener with a field out of range, a reserved byte that is not 0 or a length other than 12 is refused
FORMAT with the tag as received, and nothing else changes; any other is read into its fields. -/
def Obligations.OpenerFieldsOrFormat : Prop :=
  ∀ (m : OpenerMsg) (s : State), s.powered = true →
    ((m.length ≠ 12 ∨ m.reserved ≠ 0 ∨ 47 < m.tag.toNat ∨ (m.direction ≠ 0x01 ∧ m.direction ≠ 0x02) ∨
        3 < m.ns.toNat ∨ m.count.toNat = 0 ∨ 256 < m.count.toNat) →
      openerFields? m = none ∧
        exec (.jobOpener m) s = .next (sent (refusedCloser m.tag .format none) s)) ∧
    (m.length = 12 → m.reserved = 0 → m.tag.toNat ≤ 47 → (m.direction = 0x01 ∨ m.direction = 0x02) →
        m.ns.toNat ≤ 3 → 1 ≤ m.count.toNat → m.count.toNat ≤ 256 →
      ∃ o : Opener, openerFields? m = some o ∧ o.tag.val = m.tag.toNat ∧
        (o.direction = .encipher ↔ m.direction = 0x01) ∧ o.ns.val = m.ns.toNat ∧
        o.firstLba = m.firstLba.toNat ∧ o.count = m.count.toNat)

/-- Checks 2 to 12 refuse an opener in their order. A tag in use, a power state other than RUN, an absent
namespace, a span past its end, and a span not within one extent; then, naming the extent, BARRED always;
LOCKED, KEY_ERASED and KEY_ABSENT for ENCIPHER, and for DECIPHER where the mask entry of that condition is STOP;
KEY_WORN for a worn slot with stop at limit. A Closer that names an extent which reports conditions sets
JOB_FAULT, and nothing else changes. (TABLE_FULL, check 3, never applies: R25.) The extent of an LBA is a
defined extent of its namespace that contains it, or else the global extent; a span lies within a defined extent up
to its last LBA, and within the global one where no defined extent of the namespace begins in the span. -/
def Obligations.OpenerRefusedByTheFirstCheck : Prop :=
  (∀ (n : NamespaceId) (lba last : Nat) (s : State),
    let contains (e : ExtentId) (p : Span) : Prop :=
      ∃ x, s.extents[e] = some x ∧ x.ns = n ∧ x.span = some p ∧ p.first ≤ lba ∧ lba ≤ p.last
    ((∃ e p, contains e p) →
      ∃ p, contains (extentAt n lba s) p ∧ (spanWithin n lba last s = true ↔ last ≤ p.last)) ∧
    ((∀ e p, ¬contains e p) →
      extentAt n lba s = globalOf n ∧
        (spanWithin n lba last s = true ↔
          ∀ (e : ExtentId) (x : Extent) (p : Span), s.extents[e] = some x → x.ns = n →
            x.span = some p → ¬(lba ≤ p.first ∧ p.first ≤ last)))) ∧
  (∀ (m : OpenerMsg) (o : Opener) (s : State), s.powered = true → openerFields? m = some o →
    (s.jobs[o.tag].isSome = true →
      exec (.jobOpener m) s = .next (sent (refusedCloser m.tag .tagInUse none) s)) ∧
    (s.jobs[o.tag] = none → s.power ≠ .run →
      exec (.jobOpener m) s =
        .next (sent
          (refusedCloser m.tag
            (match s.power with
              | .starting => .starting
              | .failed => .failed
              | _ => .holding) none) s)) ∧
    (s.jobs[o.tag] = none → s.power = .run → s.namespaces[o.ns].size = 0 →
      exec (.jobOpener m) s = .next (sent (refusedCloser m.tag .noNamespace none) s)) ∧
    (s.jobs[o.tag] = none → s.power = .run → s.namespaces[o.ns].size ≠ 0 →
      s.namespaces[o.ns].size ≤ o.firstLba + o.count - 1 →
      exec (.jobOpener m) s = .next (sent (refusedCloser m.tag .beyondEnd none) s)) ∧
    (s.jobs[o.tag] = none → s.power = .run → s.namespaces[o.ns].size ≠ 0 →
      o.firstLba + o.count - 1 < s.namespaces[o.ns].size →
      spanWithin o.ns o.firstLba (o.firstLba + o.count - 1) s = false →
      exec (.jobOpener m) s =
        .next
          (let e := extentAt o.ns o.firstLba s
           let t := sent (refusedCloser m.tag .straddle (some e)) s
           if reports (some e) s then setFlag .jobFault t else t))) ∧
  (∀ (m : OpenerMsg) (o : Opener) (e : ExtentId) (x : Extent) (s : State),
    reachesExtent m o e x s →
    let refusal (c : Condition) : State :=
      let t := sent (refusedCloser m.tag c (some e)) s
      if x.policy.reportConditions then setFlag .jobFault t else t
    (x.barred = true → exec (.jobOpener m) s = .next (refusal .barred)) ∧
    (∀ c, x.barred = false → maskable o.direction x = some c →
      (o.direction = .encipher ∨ x.policy.mask c = .stop) →
      exec (.jobOpener m) s = .next (refusal c.condition)) ∧
    (∀ k, x.barred = false → maskable o.direction x = none → x.key = .live k →
      s.slots[k].worn = true → s.slots[k].stopAtLimit = true →
      exec (.jobOpener m) s = .next (refusal .keyWorn)))

/-- An opener that none of the twelve checks refuses gets a record, and its extent's timer is suspended if it is
armed: a DECIPHER opener whose first condition is masked to FILL in FILL mode, pinning no slot; one that meets no
condition in CIPHER mode, pinning the extent's slot. -/
def Obligations.OpenerAdmitted : Prop :=
  ∀ (m : OpenerMsg) (o : Opener) (e : ExtentId) (x : Extent) (s : State),
    reachesExtent m o e x s → x.barred = false →
    (∀ c, o.direction = .decipher → maskable .decipher x = some c → x.policy.mask c = .fill →
      exec (.jobOpener m) s =
        .next { s with jobs := s.jobs.set o.tag (some (freshJob o e (.fill c)))
                       timers := s.timers.set e (freshTimer x 1) }) ∧
    (∀ k, maskable o.direction x = none → x.key = .live k →
      ¬(s.slots[k].worn = true ∧ s.slots[k].stopAtLimit = true) →
      exec (.jobOpener m) s =
        .next { s with jobs := s.jobs.set o.tag (some (freshJob o e (.cipher k)))
                       slots := s.slots.set k { s.slots[k] with pins := s.slots[k].pins + 1 }
                       timers := s.timers.set e (freshTimer x 1) })

/-! ## Sector In -/

/-- A Sector In of an ENDING job is discarded without any flag, whatever its header and whether or not a buffer
is free; nothing changes. -/
def Obligations.SectorOfEndingJobIsDiscarded : Prop :=
  ∀ (m : SectorInMsg) (t : TagId) (j : Job) (k : Nat) (why : EndReason) (s : State),
    channelClear s → m.tag.toNat = t.val → s.jobs[t] = some j → j.state = .ending k why →
    exec (.sectorIn m) s = .next s

/-- A Sector In whose tag is out of range, names no record, or names an ACTIVE job that has received its sector count
is stray: STRAY is set and nothing else changes. A message of unknown type on the data channel is taken the same way
(which types are unknown on it, those of the other channel and the outbound ones included, is the model's choice, log
39). In QUIESCING with jobs or a request left (a locking step is not due). -/
def Obligations.StraySectorSetsStray : Prop :=
  ∀ s : State, channelClear s →
    ¬(s.power = .quiescing ∧ tableEmpty s = true ∧ s.executing.isNone = true) →
    (∀ m : SectorInMsg,
      (47 < m.tag.toNat ∨
        ∃ t : TagId, m.tag.toNat = t.val ∧
          (s.jobs[t] = none ∨
            ∃ j, s.jobs[t] = some j ∧ j.state = .active ∧ j.nextToReceive = j.count)) →
      exec (.sectorIn m) s = .next (setFlag .stray s)) ∧
    (∀ bytes : Bytes, exec (.unknownMessageType .data bytes) s = .next (setFlag .stray s))

/-- A well-formed Sector In of an ACTIVE job raises its next to receive by one. For a FILL-mode job nothing else
changes, and the presence of a trailer is not checked. For a CIPHER-mode job it takes a free buffer with its
data and stored tag, and joins the Ready Sector List at its end with the index next to receive holds. -/
def Obligations.ExpectedSectorIsTaken : Prop :=
  (∀ (m : SectorInMsg) (t : TagId) (j : Job) (c : FillCondition) (data : Bytes)
    (tag : Option SectorTag) (s : State),
    expectsSector m t j s → j.mode = .fill c →
    sectorInBody? m = some (s.namespaces[j.ns].sectorSize, data, tag) →
    exec (.sectorIn m) s =
      .next { s with jobs := s.jobs.set t (some { j with nextToReceive := j.nextToReceive + 1 }) }) ∧
  (∀ (m : SectorInMsg) (t : TagId) (j : Job) (k : SlotId) (data : Bytes) (tag : Option SectorTag)
    (s : State),
    expectsSector m t j s → wellFormedFor m j k data tag s →
    (∃ b : BufferId, s.buffers[b].use = .free) →
    ∃ b : BufferId, s.buffers[b].use = .free ∧
      exec (.sectorIn m) s =
        .next
          { s with buffers := s.buffers.set b { use := .listed, data := data, tag := tag }
                   ready := s.ready ++ [{ tag := t, index := j.nextToReceive, buffer := b }]
                   jobs := s.jobs.set t (some { j with nextToReceive := j.nextToReceive + 1 }) })

/-- With no buffer free, a well-formed Sector In of an ACTIVE CIPHER-mode job is withheld where stall on full is
set. Where it is clear it is dropped: OVERRUN is set, the job becomes ENDING with OVERRUN at its next to receive,
and it closes in this rule if nothing is left of it (LastSectorOutClosesJob says how a job closes); a locking step
that is then due follows (LockingStepLocksAndForgets). -/
def Obligations.FullPoolWithholdsOrDrops : Prop :=
  ∀ (m : SectorInMsg) (t : TagId) (j : Job) (k : SlotId) (data : Bytes) (tag : Option SectorTag)
    (s : State),
    expectsSector m t j s → wellFormedFor m j k data tag s →
    (∀ b : BufferId, s.buffers[b].use ≠ .free) →
    (s.stallOnFull = true →
      exec (.sectorIn m) s =
        .next { s with withheld := some { tag := t, data := data, stored := tag } }) ∧
    (s.stallOnFull = false →
      exec (.sectorIn m) s =
        .next
          (lockingStepIfDue
            (closeIfDone t (endedAt t j j.nextToReceive (.stop .overrun) (setFlag .overrun s)))))

/-- A malformed Sector In of an ACTIVE job (a rejected header, a length other than its namespace's sector size,
or in CIPHER mode a stored tag that is missing or not wanted) is discarded and the job becomes ENDING with
FORMAT at its next to receive, and closes in this rule if nothing is left of it; a locking step that is then due
follows. A header is rejected exactly for a reserved byte or flag bit that is not 0, an unknown length code, or a
length other than the data and the trailer that its flags announce; what is read from any other is its data and its
trailer, most significant byte first. -/
def Obligations.MalformedSectorEndsJob : Prop :=
  (∀ m : SectorInMsg,
    let size := if m.lengthCode = 0x00 then 512 else 4096
    (sectorInBody? m = none ↔
      m.reserved4 ≠ 0 ∨ m.reserved5 ≠ 0 ∨ (m.flags ≠ 0x00 ∧ m.flags ≠ 0x01) ∨
        (m.lengthCode ≠ 0x00 ∧ m.lengthCode ≠ 0x01) ∨
        m.payload.length ≠ size + if m.flags = 0x01 then 16 else 0) ∧
    ∀ code data tag, sectorInBody? m = some (code, data, tag) →
      (code = if m.lengthCode = 0x00 then .b512 else .b4096) ∧ data = m.payload.take size ∧
        tag.map BitVec.toNat =
          if m.flags = 0x01 then some (beNat (m.payload.drop size)) else none) ∧
  ∀ (m : SectorInMsg) (t : TagId) (j : Job) (s : State),
    expectsSector m t j s →
    (sectorInBody? m = none ∨
      (∃ size data tag, sectorInBody? m = some (size, data, tag) ∧
        (size ≠ s.namespaces[j.ns].sectorSize ∨
          ∃ k, j.mode = .cipher k ∧
            ¬(tag.isSome = true ↔
              j.direction = .decipher ∧ s.slots[k].state.mode? = some .tagged)))) →
    exec (.sectorIn m) s =
      .next
        (lockingStepIfDue (closeIfDone t (endedAt t j j.nextToReceive (.stop .format) s)))

/-! ## Pipes -/

/-- A hand-over gives the oldest entry to an idle pipe in service: the entry leaves the list, its buffer is IN_PIPE,
its job's sectors in pipes rises, and the pass context is filled from the entry, the job, the slot's key and the tweak
of first LBA plus index; nothing else changes. That the context holds no intermediate data of the sector is the
model's choice (log 35). -/
def Obligations.HandOverGivesOldestEntry : Prop :=
  ∀ (p : PipeId) (r : ReadyEntry) (rest : List ReadyEntry) (j : Job) (k : SlotId) (key : LoadedKey)
    (s : State),
    s.powered = true → s.pipes[p].inService = true → s.pipes[p].pass = none → s.ready = r :: rest →
    s.jobs[r.tag] = some j → j.mode = .cipher k →
    (s.slots[k].state = .draining key ∨ ∃ e, s.slots[k].state = .ready e key) →
    exec (.handOver p) s =
      .next
        { s with
          ready := rest
          buffers := s.buffers.set r.buffer { s.buffers[r.buffer] with use := .inPipe }
          jobs := s.jobs.set r.tag (some { j with sectorsInPipes := j.sectorsInPipes + 1 })
          pipes := s.pipes.set p
            { s.pipes[p] with
              pass := some
                { tag := r.tag, index := r.index, buffer := r.buffer, slot := k, size := key.size
                  mode := key.mode, direction := j.direction
                  tweak := { lba := j.firstLba + r.index, ns := j.ns }
                  sectorSize := s.namespaces[j.ns].sectorSize, key := key.block } } }

/-- The completion of a sector its job will still emit, whose result is TRANSFORMED: the pass is counted, the new data
(and in TAGGED ENCIPHER the new tag) stands in the sector's buffer, which is HELD, the entry joins the result hold,
the job's sectors in pipes falls, and the pipe is idle. The transform keeps the length of its data, and each direction
inverts the other under one key and tweak. A sector at or above the fault index of its ENDING job, whatever its pass,
its tags and the mask, is counted as a use too and then discarded: nothing of it is held or substituted, its buffer is
freed (a withheld Sector In takes it), and the job closes in this rule if nothing is left of it; a locking step that
is then due follows. That a tag check is an equality of tags is read from R84 and R85 (DEDUCED, log 9); the place by
index in the hold is the model's choice (log 12), and so is that the whole result is made at the completion, from the
buffer (log 35). -/
def Obligations.CompletedSectorIsHeld : Prop :=
  (∀ (size : KeySize) (key : KeyBlock) (w : Tweak) (data : Bytes),
    (∀ d, (transform size key w d data).length = data.length) ∧
    transform size key w .decipher (transform size key w .encipher data) = data ∧
    transform size key w .encipher (transform size key w .decipher data) = data) ∧
  (∀ (i : PipeId) (p : Pass) (j : Job) (k : Nat) (why : EndReason) (s : State),
    s.powered = true → s.pipes[i].pass = some p → s.jobs[p.tag] = some j →
    j.state = .ending k why → k ≤ p.index →
    let c := countedUse p.slot s
    exec (.pipeCompletion i) s =
      .next
        (lockingStepIfDue
          (closeIfDone p.tag
            { freed p.buffer
                { c with
                  jobs := s.jobs.set p.tag
                    (some { j with sectorsInPipes := j.sectorsInPipes - 1 }) } with
              pipes := s.pipes.set i { s.pipes[i] with pass := none } }))) ∧
  ∀ (i : PipeId) (p : Pass) (j : Job) (s : State),
    s.powered = true → s.pipes[i].pass = some p → s.jobs[p.tag] = some j →
    (j.state = .active ∨ ∃ k why, j.state = .ending k why ∧ p.index < k) →
    j.nextToEmit ≤ p.index → p.index < j.count →
    let out := transform p.size p.key p.tweak p.direction s.buffers[p.buffer].data
    (p.mode = .tagged → p.direction = .decipher →
      s.buffers[p.buffer].tag = some (Config.sectorTag p.size p.key p.tweak out)) →
    let tag := if p.mode = .tagged ∧ p.direction = .encipher then
        some (Config.sectorTag p.size p.key p.tweak s.buffers[p.buffer].data)
      else s.buffers[p.buffer].tag
    exec (.pipeCompletion i) s =
      .next
        (let c := countedUse p.slot s
         { c with
           buffers := s.buffers.set p.buffer { use := .held, data := out, tag := tag }
           jobs := s.jobs.set p.tag
             (some { j with
               sectorsInPipes := j.sectorsInPipes - 1
               hold := insertHeld { index := p.index, buffer := p.buffer, fill := false } j.hold })
           pipes := s.pipes.set i { s.pipes[i] with pass := none } })

/-- The completion of a TAGGED DECIPHER pass whose tag check fails, of a sector that its job, ACTIVE or stopped at a
higher index, will still emit. With FILL in the mask the entry joins the result hold with the fill marking, the
deciphered data is not written and the substituted count rises. With STOP the buffer is freed (a withheld Sector In
takes it), the job becomes ENDING with TAG_MISMATCH at the sector's index, and it closes in this rule if nothing is
left of it; a locking step that is then due follows. That the buffer is freed before the job becomes ENDING, so that a
withheld Sector In of the same job takes it and is then dropped, is the model's choice of R12's two orders (log 37).
That the check fails where the tags differ is read from R85 (DEDUCED, log 9); the place by index in the hold is the
model's choice (log 12), and so is that the whole result is made at the completion, from the buffer (log 35). -/
def Obligations.FailedTagFollowsMask : Prop :=
  ∀ (i : PipeId) (p : Pass) (j : Job) (x : Extent) (s : State),
    s.powered = true → s.pipes[i].pass = some p → s.jobs[p.tag] = some j →
    (j.state = .active ∨ ∃ k c, j.state = .ending k (.stop c) ∧ p.index < k) →
    s.extents[j.extent] = some x → j.nextToEmit ≤ p.index → p.index < j.count →
    p.mode = .tagged → p.direction = .decipher →
    s.buffers[p.buffer].tag ≠
      some (Config.sectorTag p.size p.key p.tweak
        (transform p.size p.key p.tweak .decipher s.buffers[p.buffer].data)) →
    let c := countedUse p.slot s
    let idle := s.pipes.set i { s.pipes[i] with pass := none }
    (x.policy.maskTagMismatch = .fill →
      exec (.pipeCompletion i) s =
        .next
          { c with
            buffers := s.buffers.set p.buffer { s.buffers[p.buffer] with use := .held }
            jobs := s.jobs.set p.tag
              (some { j with
                sectorsInPipes := j.sectorsInPipes - 1
                substituted := j.substituted + 1
                hold := insertHeld { index := p.index, buffer := p.buffer, fill := true } j.hold })
            pipes := idle }) ∧
    (x.policy.maskTagMismatch = .stop →
      let u := freed p.buffer
        { c with
          jobs := s.jobs.set p.tag (some { j with sectorsInPipes := j.sectorsInPipes - 1 }) }
      ∀ v, u.jobs[p.tag] = some v →
        exec (.pipeCompletion i) s =
          .next
            (lockingStepIfDue
              (closeIfDone p.tag
                { endedAt p.tag v p.index (.stop .tagMismatch) u with pipes := idle })))

/-! ## Sector Out -/

/-- The drive controller accepts a job's ready Sector Out. In CIPHER mode it carries the held data (and in ENCIPHER
the tag that stands with it) or, for a substitute, the fill byte over the sector size; the entry leaves the hold
and its buffer is freed, or taken by a withheld Sector In. In FILL mode it carries fill and the substituted count
rises. Next to emit rises by one, and a job of which nothing is left closes in this rule; a locking step that is
then due follows. A job with no ready Sector Out emits none and nothing changes: R16 says nothing of a SECTOR_OUT
there, and that it is ignored is the model's choice (log 2). -/
def Obligations.ReadySectorOutIsEmitted : Prop :=
  ∀ (t : TagId) (j : Job) (x : Extent) (s : State),
    s.powered = true → s.jobs[t] = some j → s.extents[j.extent] = some x →
    let bound := match j.state with
      | .active => j.count
      | .ending k _ => k
    let fill := List.replicate s.namespaces[j.ns].sectorSize.bytes x.policy.fillByte
    (∀ k h, j.mode = .cipher k →
      (j.hold.find? fun h => decide (h.index = j.nextToEmit)) = some h → j.nextToEmit < bound →
      exec (.sectorOut t) s =
        .next
          (lockingStepIfDue
            (closeIfDone t
              (freed h.buffer
                { s with
                  outData := s.outData ++
                    [if h.fill then
                      { tag := t, index := j.nextToEmit, fill := true, data := fill
                        trailer := none }
                    else
                      { tag := t, index := j.nextToEmit, fill := false
                        data := s.buffers[h.buffer].data
                        trailer := if j.direction = .encipher then s.buffers[h.buffer].tag
                          else none }]
                  jobs := s.jobs.set t
                    (some { j with
                      nextToEmit := j.nextToEmit + 1
                      hold := j.hold.filter fun g => decide (g.index ≠ j.nextToEmit) }) })))) ∧
    (∀ c, j.mode = .fill c → j.nextToEmit < j.nextToReceive → j.nextToEmit < bound →
      exec (.sectorOut t) s =
        .next
          (lockingStepIfDue
            (closeIfDone t
              { s with
                outData := s.outData ++
                  [{ tag := t, index := j.nextToEmit, fill := true, data := fill, trailer := none }]
                jobs := s.jobs.set t
                  (some { j with nextToEmit := j.nextToEmit + 1, substituted := j.substituted + 1 }) }))) ∧
    ((∃ k, j.mode = .cipher k ∧ ∀ h ∈ j.hold, h.index ≠ j.nextToEmit) ∨
        (∃ c, j.mode = .fill c ∧ j.nextToReceive ≤ j.nextToEmit) ∨
        (∃ k why, j.state = .ending k why ∧ k ≤ j.nextToEmit) →
      exec (.sectorOut t) s = .next s)

/-- While a Sector In is withheld, what arrives on the data channel waits behind it (the model's choice of place,
log 14), and the buffer that an accepted Sector Out frees is taken by the withheld sector in the same rule: it
joins the Ready Sector List at its end with its job's next to receive (here with more to come of the job that
emits). -/
def Obligations.WithheldSectorTakesFreedBuffer : Prop :=
  ∀ (t : TagId) (j : Job) (h : HeldResult) (k : SlotId) (w : Withheld) (s : State),
    s.powered = true → s.withheld = some w → s.jobs[t] = some j →
    (∀ m : SectorInMsg,
      exec (.sectorIn m) s = .next { s with inbound := s.inbound ++ [.sector m] }) ∧
    (j.state = .active → j.mode = .cipher k → h.fill = false →
      (j.hold.find? fun h => decide (h.index = j.nextToEmit)) = some h → j.nextToEmit + 1 < j.count →
      let jobs := s.jobs.set t
        (some { j with
          nextToEmit := j.nextToEmit + 1
          hold := j.hold.filter fun g => decide (g.index ≠ j.nextToEmit) })
      ∀ v, jobs[w.tag] = some v →
        exec (.sectorOut t) s =
          .next
            { s with
              outData := s.outData ++
                [{ tag := t, index := j.nextToEmit, fill := false, data := s.buffers[h.buffer].data
                   trailer := if j.direction = .encipher then s.buffers[h.buffer].tag else none }]
              withheld := none
              buffers := s.buffers.set h.buffer { use := .listed, data := w.data, tag := w.stored }
              ready := s.ready ++ [{ tag := w.tag, index := v.nextToReceive, buffer := h.buffer }]
              jobs := jobs.set w.tag (some { v with nextToReceive := v.nextToReceive + 1 }) })

/-- A job closes exactly when it has emitted all it will emit and no sector of it is in a pipe. Its Closer follows
R21's table row by row; one that carries a condition for an extent that reports conditions sets JOB_FAULT. The slot
is unpinned, the record is gone, and if no other record names the extent its timer starts at its full count where
it is armed. A DRAINING slot with no other pin becomes EMPTY; an ERASE that waits for it is answered by the end of
its void write in the same rule, or waits for that end alone. That the answer leaves after the Closer is the
model's choice (log 13). As one case, the last Sector Out of an ACTIVE CIPHER-mode job without substitutes closes
it in its own rule with DONE and its sector count. -/
def Obligations.LastSectorOutClosesJob : Prop :=
  (∀ (t : TagId) (j : Job),
    let row (o : JobOutcome) (c : Option CloserCause) (emitted substituted : Nat) (fault : Option Nat) :
        Closer :=
      { tag := BitVec.ofNat 8 t.val, outcome := o, cause := c, extent := some j.extent
        emitted := emitted, substituted := substituted, faultIndex := fault }
    (∀ k, j.state = .active → j.mode = .cipher k → j.substituted = 0 →
      closerOf t j = row .done none j.count 0 none) ∧
    (∀ k, j.state = .active → j.mode = .cipher k → j.substituted ≠ 0 →
      closerOf t j = row .done (some (.condition .tagMismatch)) j.count j.substituted none) ∧
    (∀ c, j.state = .active → j.mode = .fill c →
      closerOf t j =
        row .done
          (some (.condition (match c with
            | .locked => .locked
            | .keyErased => .keyErased
            | .keyAbsent => .keyAbsent))) j.count j.count none) ∧
    (∀ k c, j.state = .ending k (.stop c) →
      closerOf t j =
        row .stopped
          (some (.condition (match c with
            | .tagMismatch => .tagMismatch
            | .overrun => .overrun
            | .format => .format))) k j.substituted (some k)) ∧
    (∀ k r, j.state = .ending k (.cut r) →
      closerOf t j = row .aborted (some (.cut r)) k j.substituted (some k)) ∧
    (j.finished = true ↔ emittedAll j)) ∧
  (∀ (t : TagId) (s : State), s.jobs[t] = none → closeIfDone t s = s) ∧
  (∀ (t : TagId) (j : Job) (x : Extent) (s : State), s.jobs[t] = some j →
    s.extents[j.extent] = some x →
    let u := closedWith (closerOf t j) t j x s
    let waits (k : Option SlotId) (w : Option WriteEnd) : Prop :=
      k.isSome = true ∧ ∃ seq e, s.executing = some { seq := seq, request := .erase e k w }
    (¬emittedAll j → closeIfDone t s = s) ∧
    (emittedAll j → (∀ w, ¬waits (drainOf j s) w) → closeIfDone t s = u) ∧
    (∀ k seq e, emittedAll j → drainOf j s = some k →
      s.executing = some { seq := seq, request := .erase e (some k) none } →
      closeIfDone t s =
        { u with executing := some { seq := seq, request := .erase e none none } }) ∧
    (∀ k seq e w y, emittedAll j → drainOf j s = some k →
      s.executing = some { seq := seq, request := .erase e (some k) (some w) } →
      s.extents[e] = some y →
      let stale := item1 0x57 (boolCode y.storeStale)
      let phase := item1 0x60 w.facts.phase.code
      closeIfDone t s =
        match w.outcome with
        | .verified => ended .erase seq .ok [item1 0x51 y.key.code, stale, phase] u
        | .differs => ended .erase seq .storeNotVoided [stale, phase, item1 0x61 0x48] u
        | .failed f =>
          ended .erase seq .storeNotVoided [stale, phase, item1 0x61 f.result.code] u)) ∧
  ∀ (t : TagId) (j : Job) (h : HeldResult) (k : SlotId) (x : Extent) (s : State),
    s.powered = true → s.power = .run → s.withheld = none → s.jobs[t] = some j → j.state = .active →
    j.mode = .cipher k → j.substituted = 0 → j.sectorsInPipes = 0 → j.nextToEmit + 1 = j.count →
    (j.hold.find? fun h => decide (h.index = j.nextToEmit)) = some h → h.fill = false →
    s.extents[j.extent] = some x → jobsNaming j.extent s = 1 →
    let closed (v : Slot) : State :=
      { s with
        outData := s.outData ++
          [{ tag := t, index := j.nextToEmit, fill := false, data := s.buffers[h.buffer].data
             trailer := if j.direction = .encipher then s.buffers[h.buffer].tag else none }]
        outControl := s.outControl ++
          [.closer { tag := BitVec.ofNat 8 t.val, outcome := .done, cause := none
                     extent := some j.extent, emitted := j.count, substituted := 0
                     faultIndex := none }]
        buffers := s.buffers.set h.buffer { use := .free, data := [], tag := none }
        jobs := s.jobs.set t none
        slots := s.slots.set k v
        timers := s.timers.set j.extent (freshTimer x 0) }
    (∀ e key, s.slots[k].state = .ready e key →
      exec (.sectorOut t) s = .next (closed { s.slots[k] with pins := s.slots[k].pins - 1 })) ∧
    (∀ key e y seq, s.slots[k].state = .draining key → s.slots[k].pins = 1 →
      s.executing =
        some { seq := seq
               request := .erase e (some k)
                 (some { outcome := .verified
                         facts := { writeBegun := true, finalStopSent := true, verified := true } }) } →
      s.extents[e] = some y →
      exec (.sectorOut t) s =
        .next (ended .erase seq .ok
          [item1 0x51 y.key.code, item1 0x57 (boolCode y.storeStale), item1 0x60 0x03]
          (closed
            { state := .empty, pins := 0, usage := 0, limit := 0, stopAtLimit := false
              worn := false })))

/-- A cut of named jobs. A job not named keeps its record. A named one becomes ENDING at its next to emit with the
cut's reason, unless a cut had ended it before (for CUT_HOLD, where R161 reads otherwise, DEDUCED, log 38); its Ready
Sector List entries and held results from there on are dropped and their buffers FREE. It is gone in the same rule if
no sector of it is in a pipe: its pin is released, its Closer leaves (in ascending order of tags, the model's choice,
log 13, here where no ERASE waits for a drain), and the timer of an extent left without jobs starts anew. A withheld
Sector In of a named job is discarded, or takes a buffer that a named job of a lower tag has freed and is dropped at
its own job's turn, so that next to receive of an ENDING job is left open here (R12 allows both orders, the model's
choice is log 13's); of another job it takes the first buffer that becomes FREE (the order is log 13's) and joins the
list at its end, and where none does it stays withheld. Nothing else changes. -/
def Obligations.CutEndsNamedJobs : Prop :=
  ∀ (named : Job → Bool) (r : CutReason) (s : State),
    (∀ j n, named { j with nextToReceive := n } = named j) →
    let u := cutJobs named r s
    let free : Buffer := { use := .free, data := [], tag := none }
    let closes (t : TagId) : Option Job := cutCloses named r s t
    let kept := s.ready.filter fun r => !cutEntry named s r
    (∀ (t : TagId) (j : Job), s.jobs[t] = some j → (∀ w, s.withheld = some w → w.tag ≠ t) →
      u.jobs[t] =
        if named j then
          if (cutOff r j).finished then none else some (cutOff r j)
        else some j) ∧
    (∀ t : TagId, s.jobs[t] = none → u.jobs[t] = none) ∧
    (∀ k : SlotId,
      let v := s.slots[k]
      let n := cutPins named r k s
      u.slots[k] =
        match v.state with
        | .draining _ =>
          if n ≠ 0 ∧ v.pins ≤ n then
            { state := .empty, pins := 0, usage := 0, limit := 0, stopAtLimit := false
              worn := false }
          else { v with pins := v.pins - n }
        | _ => { v with pins := v.pins - n }) ∧
    (∀ (e : ExtentId) (x : Extent), s.extents[e] = some x →
      ((∃ t j, closes t = some j ∧ j.extent = e) → jobsNaming e u = 0 →
        u.timers[e] = freshTimer x 0) ∧
      ((∀ t j, closes t = some j → j.extent ≠ e) ∨ jobsNaming e u ≠ 0 →
        u.timers[e] = s.timers[e])) ∧
    ((∀ seq e k w, s.executing ≠ some { seq := seq, request := .erase e (some k) w }) →
      u.outControl =
        s.outControl ++
          (List.finRange 48).filterMap fun t =>
            (closes t).map fun j => .closer (closerOf t j)) ∧
    u =
      { s with
        jobs := u.jobs, ready := u.ready, buffers := u.buffers, slots := u.slots, timers := u.timers
        withheld := u.withheld, outControl := u.outControl, executing := u.executing
        context := u.context } ∧
    ((∀ seq e k w, s.executing ≠ some { seq := seq, request := .erase e (some k) w }) →
      u.executing = s.executing ∧ u.context = s.context) ∧
    ((s.withheld = none ∨
        ∃ w j, s.withheld = some w ∧ s.jobs[w.tag] = some j ∧ newlyCut named j = true ∧
          j.nextToEmit ≤ j.nextToReceive) →
      u.withheld = none ∧ u.ready = kept ∧
      (∀ b : BufferId, u.buffers[b] = if b ∈ cutBuffers named s then free else s.buffers[b]) ∧
      ∀ w j, s.withheld = some w → s.jobs[w.tag] = some j →
        if (cutOff r j).finished then u.jobs[w.tag] = none
        else ∃ n, u.jobs[w.tag] = some { cutOff r j with nextToReceive := n }) ∧
    (∀ w j, s.withheld = some w → s.jobs[w.tag] = some j → named j = false →
      (cutBuffers named s = [] →
        u.withheld = some w ∧ u.ready = kept ∧ u.buffers = s.buffers ∧ u.jobs[w.tag] = some j) ∧
      (∀ b rest, cutBuffers named s = b :: rest → (b :: rest).Nodup →
        u.withheld = none ∧
        u.ready = kept ++ [{ tag := w.tag, index := j.nextToReceive, buffer := b }] ∧
        u.buffers[b] = { use := .listed, data := w.data, tag := w.stored } ∧
        (∀ c : BufferId, c ≠ b →
          u.buffers[c] = if c ∈ cutBuffers named s then free else s.buffers[c]) ∧
        u.jobs[w.tag] = some { j with nextToReceive := j.nextToReceive + 1 }))

/-! ## Requests: taking and refusing -/

/-- A request of a known name is answered BUSY while another executes, whatever its target, its items and the
power state. With none executing, every request but IDENTIFY, READ EVENTS, CLEAR EVENTS and SET EVENT ENABLES
is answered STARTING, HOLDING or FAILED outside RUN. Nothing else changes. -/
def Obligations.RequestsNotAcceptedAreAnswered : Prop :=
  ∀ (n : RequestName) (r : Request) (s : State), s.powered = true →
    (s.executing.isSome = true →
      exec (Instr.ofRequest n r) s = .next (sent (answerTo n r .busy []) s)) ∧
    (s.executing = none →
      n ≠ .identify → n ≠ .readEvents → n ≠ .clearEvents → n ≠ .setEventEnables →
      (s.power = .starting →
        exec (Instr.ofRequest n r) s = .next (sent (answerTo n r .starting []) s)) ∧
      (s.power = .quiescing →
        exec (Instr.ofRequest n r) s = .next (sent (answerTo n r .holding []) s)) ∧
      (s.power = .hold →
        exec (Instr.ofRequest n r) s = .next (sent (answerTo n r .holding []) s)) ∧
      (s.power = .failed →
        exec (Instr.ofRequest n r) s = .next (sent (answerTo n r .failed []) s)))

/-- A request in RUN with an unknown item code, an item given twice, an item of the wrong size, a required item
missing, or a target or an item out of its range, is answered FORMAT by its owning rule (that an item in a request
that takes none is an unknown code there is DEDUCED, log 17). An unknown request is answered FORMAT with its code and
sequence number, even while another executes and in every power state; a message of unknown type on the control
channel is answered FORMAT with code 0x00 and the byte at offset 2 (which types are unknown on it, those of the other
channel and the outbound ones included, is the model's choice, log 39). Nothing else changes. -/
def Obligations.MalformedAndUnknownAreFormat : Prop :=
  (∀ (n : RequestName) (r : Request) (s : State), Accepts s → malformed n r →
    exec (Instr.ofRequest n r) s = .next (sent (answerTo n r .format []) s)) ∧
  ∀ s : State, s.powered = true →
    (∀ code seq : Byte,
      exec (.unknownRequest code seq) s =
        .next (sent (.answer { code := code, seq := seq, result := .format, items := [] }) s)) ∧
    (∀ bytes : Bytes, ∃ seq : Byte,
      exec (.unknownMessageType .control bytes) s =
          .next (sent (.answer { code := 0x00, seq := seq, result := .format, items := [] }) s) ∧
        ∀ a b c rest, bytes = a :: b :: c :: rest → seq = c)

/-- The operands of a request that its owning rule takes are those its target and its items spell, most significant
byte first: every field of the request's table is read from the item of its code, an optional field from its item
or from none. Every request that is not malformed is read, where its items stand in ascending order (what a request
gets whose items do not is open, log 16) and its target is 0xFF where it uses none (another is FORMAT: DEDUCED,
log 17). -/
def Obligations.RequestFieldsAreRead : Prop :=
  (∀ r : Request,
    (whole .identify r ∨ whole .readEvents r → bare r = true) ∧
    (whole .setNamespace r → (namespaceArgs? r).isSome = true) ∧
    (whole .defineExtent r → (defineArgs? r).isSome = true) ∧
    (whole .retireExtent r ∨ whole .queryExtent r → (extentOnly? r).isSome = true) ∧
    (whole .setPolicy r → (policyArgs? r).isSome = true) ∧
    (whole .querySlot r → (slotOnly? r).isSome = true) ∧
    (whole .unlock r → (unlockArgs? r).isSome = true) ∧
    (whole .lock r → (lockArgs? r).isSome = true) ∧
    (whole .rewrap r → (rewrapArgs? r).isSome = true) ∧
    (whole .erase r → (eraseArgs? r).isSome = true) ∧
    (whole .generate r → (generateArgs? r).isSome = true) ∧
    (whole .setLink r → (linkArgs? r).isSome = true) ∧
    (whole .setTick r → (tickArgs? r).isSome = true) ∧
    (whole .clearEvents r → (clearArgs? r).isSome = true) ∧
    (whole .setEventEnables r → (enableArgs? r).isSome = true)) ∧
  ∀ r : Request,
    (∀ a, namespaceArgs? r = some a →
      r.target.toNat = a.ns.val ∧ carries r 0x02 a.size ∧ carries r 0x03 a.sectorSize.code.toNat ∧
        carries r 0x04 a.handle.val) ∧
    (∀ a, defineArgs? r = some a →
      r.target.toNat = a.extent.val ∧ carries r 0x01 a.ns.val ∧ carries r 0x04 a.handle.val ∧
        carries r 0x05 a.first ∧ carries r 0x06 a.last ∧ carriesPolicy r a.policy) ∧
    (∀ e, extentOnly? r = some e → r.target.toNat = e.val ∧ r.items = []) ∧
    (∀ k, slotOnly? r = some k → r.target.toNat = k.val ∧ r.items = []) ∧
    (∀ a, policyArgs? r = some a → r.target.toNat = a.extent.val ∧ carriesPolicy r a.policy) ∧
    (∀ a, unlockArgs? r = some a →
      r.target.toNat = a.extent.val ∧ carries r 0x20 a.credential.toNat ∧
        carries r 0x23 (directionsCode a.dirs)) ∧
    (∀ a, lockArgs? r = some a →
      r.target.toNat = a.extent.val ∧ carries r 0x23 (directionsCode a.dirs) ∧
        carries r 0x24 (yesNoCode a.forget) ∧ carries r 0x25 (if a.cut then 2 else 1)) ∧
    (∀ a, rewrapArgs? r = some a →
      r.target.toNat = a.extent.val ∧ carries r 0x21 a.old.toNat ∧ carries r 0x22 a.new.toNat) ∧
    (∀ a, eraseArgs? r = some a →
      r.target.toNat = a.extent.val ∧ carries r 0x25 (if a.cut then 2 else 1)) ∧
    (∀ a, generateArgs? r = some a →
      r.target.toNat = a.extent.val ∧ carries r 0x20 a.credential.toNat ∧
        carries r 0x23 (directionsCode a.dirs) ∧ carries r 0x26 a.size.code.toNat ∧
        carries r 0x27 a.mode.code.toNat) ∧
    (∀ a, linkArgs? r = some a →
      mayCarry r 0x30 (a.rate.map fun v => v.code.toNat) ∧
        mayCarry r 0x31 (a.deviceAddress.map fun v => v.toNat) ∧ mayCarry r 0x32 a.stretchLimit ∧
        mayCarry r 0x33 a.freeWaitLimit ∧ mayCarry r 0x34 (a.stallOnFull.map yesNoCode)) ∧
    (∀ a, tickArgs? r = some a →
      mayCarry r 0x38 (a.period.map fun v => v.code.toNat) ∧ mayCarry r 0x39 a.drainLimit) ∧
    (∀ fs, clearArgs? r = some fs →
      ∃ i ∈ r.items, i.code = 0x40 ∧ i.value.map BitVec.toNat = fs.map fun f => f.idx.val + 1) ∧
    (∀ es, enableArgs? r = some es →
      ∃ i ∈ r.items, i.code = 0x41 ∧
        i.value.map BitVec.toNat = es.flatMap fun p => [p.1.idx.val + 1, yesNoCode p.2])

/-! ## Management requests -/

/-- IDENTIFY is answered OK in every power state with the part code, the revision, the number of pipes in
service, the power state, the Random Source state and the capacities, and changes nothing. -/
def Obligations.IdentifyReports : Prop :=
  ∀ (r : Request) (s : State), Listens s → r.target = 0xFF → r.items = [] →
    exec (.identify r) s =
      .next (sent
        (answerTo .identify r .ok
          [itemN 0x68 2 Config.partCode.toNat, item1 0x69 Config.revision,
            itemN 0x6A 1 ((List.finRange 4).countP fun p => s.pipes[p].inService),
            item1 0x6B s.power.code, item1 0x6C s.random.state.code,
            { code := 0x6D, value := [48, 96, 24, 32] }]) s)

/-- READ EVENTS is answered OK in every power state with the SET flags, the enables and the reported marks as
they stood; every SET flag has its mark made yes, and no state, enable or ATTN changes. Bit i of each item
stands for the flag of code i + 1, and no bit above the 13th is set. A flag set after it has mark no again. -/
def Obligations.ReadEventsShowsAndMarks : Prop :=
  (∀ (f : Flag) (u : State),
    (setFlag f u).flags[f.idx] = { state := .set false, enable := u.flags[f.idx].enable }) ∧
  ∀ (r : Request) (s : State), Listens s → AttnFollowsFlags s → r.target = 0xFF → r.items = [] →
    ∃ (states enables marks : Nat) (flags : Vector EventFlag 13),
      exec (.readEvents r) s =
        .next (sent
          (answerTo .readEvents r .ok
            [itemN 0x70 2 states, itemN 0x71 2 enables, itemN 0x72 2 marks])
          { s with flags := flags }) ∧
      states < 2 ^ 13 ∧ enables < 2 ^ 13 ∧ marks < 2 ^ 13 ∧
      ∀ i : Fin 13,
        states.testBit i = s.flags[i].isSet ∧ enables.testBit i = s.flags[i].enable ∧
        marks.testBit i = s.flags[i].isReported ∧
        flags[i] =
          { state := if s.flags[i].isSet then .set true else .clear, enable := s.flags[i].enable }

/-- CLEAR EVENTS, in every power state: a listed flag that is SET with mark yes becomes CLEAR, one that is SET
with mark no stays and is named as kept, and every other flag is unchanged. The answer gives the states after
it, and ATTN follows. An empty list or an unknown flag code (or another malformed item) is answered FORMAT and
nothing else changes. A flag set before or after a CLEAR EVENTS that lists it is SET with mark no after both. -/
def Obligations.ClearEventsClearsReported : Prop :=
  (∀ (r : Request) (s : State), Listens s → malformed .clearEvents r →
    exec (.clearEvents r) s = .next (sent (answerTo .clearEvents r .format []) s)) ∧
  (∀ (r : Request) (f : Flag) (s : State), Listens s →
    ∃ t u : State, exec (.clearEvents r) s = .next t ∧ exec (.clearEvents r) (setFlag f s) = .next u ∧
      (setFlag f t).flags[f.idx].state = .set false ∧ u.flags[f.idx].state = .set false) ∧
  ∀ (r : Request) (fs : List Flag) (s : State), Listens s → clearArgs? r = some fs →
    ∃ (states kept : Nat) (t : State),
      exec (.clearEvents r) s = .next t ∧
      t = sent (answerTo .clearEvents r .ok [itemN 0x70 2 states, itemN 0x73 2 kept])
        { s with flags := t.flags, attn := t.attn } ∧
      AttnFollowsFlags t ∧ states < 2 ^ 13 ∧ kept < 2 ^ 13 ∧
      ∀ f : Flag,
        states.testBit f.idx = t.flags[f.idx].isSet ∧
        kept.testBit f.idx = (decide (f ∈ fs) && decide (s.flags[f.idx].state = .set false)) ∧
        t.flags[f.idx] =
          if f ∈ fs ∧ s.flags[f.idx].state = .set true then
            { state := .clear, enable := s.flags[f.idx].enable }
          else s.flags[f.idx]

/-- SET EVENT ENABLES, in every power state: every carried enable is written, every other stays, no flag state
or mark changes, the answer gives the 13 enables as they then stand, and ATTN follows. An empty selection, an
unknown flag code, a flag named twice (or another malformed item) is answered FORMAT and nothing else changes. -/
def Obligations.SetEventEnablesWritesCarried : Prop :=
  (∀ (r : Request) (s : State), Listens s → malformed .setEventEnables r →
    exec (.setEventEnables r) s = .next (sent (answerTo .setEventEnables r .format []) s)) ∧
  ∀ (r : Request) (es : List (Flag × Bool)) (s : State), Listens s → enableArgs? r = some es →
    ∃ (enables : Nat) (t : State),
      exec (.setEventEnables r) s = .next t ∧
      t = sent (answerTo .setEventEnables r .ok [itemN 0x71 2 enables])
        { s with flags := t.flags, attn := t.attn } ∧
      AttnFollowsFlags t ∧ enables < 2 ^ 13 ∧
      ∀ f : Flag,
        enables.testBit f.idx = t.flags[f.idx].enable ∧
        t.flags[f.idx].state = s.flags[f.idx].state ∧
        (∀ b, (f, b) ∈ es → t.flags[f.idx].enable = b) ∧
        ((∀ b, (f, b) ∉ es) → t.flags[f.idx].enable = s.flags[f.idx].enable)

/-! ## The Extent Table -/

/-- SET NAMESPACE: NS_BUSY while a job or a defined extent of the namespace exists, KEY_PRESENT when it would
remove a namespace whose global extent is LIVE, and otherwise the entry is written and the global extent
begins, stays with its handle replaced while its key status is NONE, or becomes FREE. -/
def Obligations.SetNamespaceByItsTables : Prop :=
  ∀ (r : Request) (a : NamespaceArgs) (s : State), Accepts s → namespaceArgs? r = some a →
    let g : ExtentId := globalOf a.ns
    let busy : Prop :=
      (∃ (t : TagId) (j : Job), s.jobs[t] = some j ∧ j.ns = a.ns) ∨
        ∃ (e : ExtentId) (x : Extent), 4 ≤ e.val ∧ s.extents[e] = some x ∧ x.ns = a.ns
    let live : Prop := ∃ x k, s.extents[g] = some x ∧ x.key = .live k
    let after : Option Extent :=
      if a.size = 0 then none
      else if s.namespaces[a.ns].size = 0 then
        some { ns := a.ns, span := none, handle := a.handle, key := .none, readLock := true
               writeLock := true, barred := false, tryCount := 0
               policy :=
                { tryLimit := 5, maskLocked := .stop, maskKeyErased := .stop
                  maskKeyAbsent := .stop, maskTagMismatch := .stop, fillByte := 0x00
                  reportConditions := false, lockOnHold := true, idleMode := .off
                  idleCount := 300, idleStep := .x1, forgetOnIdle := false, usageLimit := 0
                  stopAtLimit := false }
               storeStale := false }
      else
        s.extents[g].map fun x => if x.key = .none then { x with handle := a.handle } else x
    g.val = a.ns.val ∧
    (busy → exec (.setNamespace r) s = .next (sent (answerTo .setNamespace r .nsBusy []) s)) ∧
    (¬busy → a.size = 0 → live →
      exec (.setNamespace r) s = .next (sent (answerTo .setNamespace r .keyPresent []) s)) ∧
    (¬busy → ¬(a.size = 0 ∧ live) →
      exec (.setNamespace r) s =
        .next (sent
          (answerTo .setNamespace r .ok
            (match after with
              | some x => [itemN 0x04 1 x.handle.val]
              | none => []))
          { s with
            namespaces := s.namespaces.set a.ns { size := a.size, sectorSize := a.sectorSize }
            extents := s.extents.set g after
            timers :=
              if s.namespaces[a.ns].size = 0 ∨ a.size = 0 then s.timers.set g .disarmed
              else s.timers }))

/-- DEFINE EXTENT: its checks 2 to 7 in their order, and otherwise the record becomes DEFINED with the request's
namespace, span and handle, locked in both directions and without a key, with the carried policy fields in
place of the defaults, and its timer disarmed. -/
def Obligations.DefineExtentByItsTable : Prop :=
  ∀ (r : Request) (a : DefineArgs) (s : State), Accepts s → defineArgs? r = some a →
    let refusedWith (c : ResultCode) : Prop :=
      exec (.defineExtent r) s = .next (sent (answerTo .defineExtent r c []) s)
    let inRange : Prop := a.first ≤ a.last ∧ a.last < s.namespaces[a.ns].size
    let overlap : Prop :=
      ∃ (e : ExtentId) (x : Extent) (p : Span), s.extents[e] = some x ∧ x.ns = a.ns ∧
        x.span = some p ∧ p.first ≤ a.last ∧ a.first ≤ p.last
    let job : Prop :=
      ∃ (t : TagId) (j : Job), s.jobs[t] = some j ∧ j.ns = a.ns ∧ j.firstLba ≤ a.last ∧
        a.first ≤ j.firstLba + j.count - 1
    (a.extent.val < 4 → refusedWith .fixed) ∧
    (4 ≤ a.extent.val → s.extents[a.extent].isSome = true → refusedWith .inUse) ∧
    (4 ≤ a.extent.val → s.extents[a.extent] = none → s.namespaces[a.ns].size = 0 →
      refusedWith .noNamespace) ∧
    (4 ≤ a.extent.val → s.extents[a.extent] = none → s.namespaces[a.ns].size ≠ 0 → ¬inRange →
      refusedWith .range) ∧
    (4 ≤ a.extent.val → s.extents[a.extent] = none → inRange → overlap → refusedWith .overlap) ∧
    (4 ≤ a.extent.val → s.extents[a.extent] = none → inRange → ¬overlap → job →
      refusedWith .extentBusy) ∧
    (4 ≤ a.extent.val → s.extents[a.extent] = none → inRange → ¬overlap → ¬job →
      exec (.defineExtent r) s =
        .next (sent (answerTo .defineExtent r .ok [])
          { s with
            extents := s.extents.set a.extent
              (some
                { ns := a.ns, span := some { first := a.first, last := a.last }
                  handle := a.handle, key := .none, readLock := true, writeLock := true
                  barred := false, tryCount := 0
                  policy :=
                    { tryLimit := a.policy.tryLimit.getD 5
                      maskLocked := a.policy.maskLocked.getD .stop
                      maskKeyErased := a.policy.maskKeyErased.getD .stop
                      maskKeyAbsent := a.policy.maskKeyAbsent.getD .stop
                      maskTagMismatch := a.policy.maskTagMismatch.getD .stop
                      fillByte := a.policy.fillByte.getD 0x00
                      reportConditions := a.policy.reportConditions.getD false
                      lockOnHold := a.policy.lockOnHold.getD true
                      idleMode := a.policy.idleMode.getD .off
                      idleCount := a.policy.idleCount.getD 300
                      idleStep := a.policy.idleStep.getD .x1
                      forgetOnIdle := a.policy.forgetOnIdle.getD false
                      usageLimit := a.policy.usageLimit.getD 0
                      stopAtLimit := a.policy.stopAtLimit.getD false }
                  storeStale := false })
            timers := s.timers.set a.extent .disarmed }))

/-- RETIRE EXTENT: its checks 2 to 5 in their order, and otherwise the record becomes FREE and its timer is disarmed.
That a global record whose namespace is absent is refused FIXED, by the order of R53, and not NO_EXTENT, as R43 has
it, is DEDUCED (log 34). -/
def Obligations.RetireExtentByItsTable : Prop :=
  ∀ (r : Request) (e : ExtentId) (s : State), Accepts s → extentOnly? r = some e →
    let refusedWith (c : ResultCode) : Prop :=
      exec (.retireExtent r) s = .next (sent (answerTo .retireExtent r c []) s)
    (e.val < 4 → refusedWith .fixed) ∧
    (4 ≤ e.val → s.extents[e] = none → refusedWith .noExtent) ∧
    (∀ x, 4 ≤ e.val → s.extents[e] = some x →
      let busy : Prop :=
        ∃ (t : TagId) (j : Job), s.jobs[t] = some j ∧
          (j.extent = e ∨ ∃ p, x.span = some p ∧ j.ns = x.ns ∧ j.firstLba ≤ p.last ∧
            p.first ≤ j.firstLba + j.count - 1)
      (x.key.isLive = true → refusedWith .keyPresent) ∧
      (x.key.isLive = false → busy → refusedWith .extentBusy) ∧
      (x.key.isLive = false → ¬busy →
        exec (.retireExtent r) s =
          .next (sent (answerTo .retireExtent r .ok [])
            { s with extents := s.extents.set e none, timers := s.timers.set e .disarmed })))

/-- SET POLICY: its checks 2 to 4 in their order, and otherwise every carried field is written, the timer is
judged again with a fresh count, and the slot of a LIVE extent takes the carried usage limit and stop at
limit, becoming worn (and KEY_WORN set) when a nonzero limit is at or below its counter. -/
def Obligations.SetPolicyByItsTables : Prop :=
  ∀ (r : Request) (a : PolicyArgs) (s : State), Accepts s → policyArgs? r = some a →
    let refusedWith (c : ResultCode) : Prop :=
      exec (.setPolicy r) s = .next (sent (answerTo .setPolicy r c []) s)
    let e := a.extent
    let u := a.policy
    (s.extents[e] = none → refusedWith .noExtent) ∧
    (∀ x, s.extents[e] = some x →
      let y : Extent :=
        { x with
          policy :=
            { tryLimit := u.tryLimit.getD x.policy.tryLimit
              maskLocked := u.maskLocked.getD x.policy.maskLocked
              maskKeyErased := u.maskKeyErased.getD x.policy.maskKeyErased
              maskKeyAbsent := u.maskKeyAbsent.getD x.policy.maskKeyAbsent
              maskTagMismatch := u.maskTagMismatch.getD x.policy.maskTagMismatch
              fillByte := u.fillByte.getD x.policy.fillByte
              reportConditions := u.reportConditions.getD x.policy.reportConditions
              lockOnHold := u.lockOnHold.getD x.policy.lockOnHold
              idleMode := u.idleMode.getD x.policy.idleMode
              idleCount := u.idleCount.getD x.policy.idleCount
              idleStep := u.idleStep.getD x.policy.idleStep
              forgetOnIdle := u.forgetOnIdle.getD x.policy.forgetOnIdle
              usageLimit := u.usageLimit.getD x.policy.usageLimit
              stopAtLimit := u.stopAtLimit.getD x.policy.stopAtLimit } }
      let written : State :=
        { s with extents := s.extents.set e (some y)
                 timers := s.timers.set e (freshTimer y (jobsNaming e s)) }
      (u.tryLimit.isSome = true → x.barred = true → refusedWith .barred) ∧
      (∀ n, u.tryLimit = some n → x.barred = false → n ≤ x.tryCount →
        refusedWith .limitBelowCount) ∧
      ((∀ n, u.tryLimit = some n → x.barred = false ∧ x.tryCount < n) →
        (x.key.isLive = false →
          exec (.setPolicy r) s = .next (sent (answerTo .setPolicy r .ok []) written)) ∧
        (∀ k, x.key = .live k →
          let v := s.slots[k]
          let limit := u.usageLimit.getD v.limit
          let stop := u.stopAtLimit.getD v.stopAtLimit
          let worn : Prop := u.usageLimit.isSome = true ∧ limit ≠ 0 ∧ limit ≤ v.usage ∧ v.worn = false
          (¬worn →
            exec (.setPolicy r) s =
              .next (sent (answerTo .setPolicy r .ok [])
                { written with
                  slots := s.slots.set k { v with limit := limit, stopAtLimit := stop } })) ∧
          (worn →
            exec (.setPolicy r) s =
              .next (sent (answerTo .setPolicy r .ok [])
                (setFlag .keyWorn
                  { written with
                    slots := s.slots.set k
                      { v with limit := limit, stopAtLimit := stop, worn := true } }))))))

/-- QUERY EXTENT and QUERY SLOT are answered OK and change nothing. A FREE record shows its state alone; a
DEFINED one shows the items of 12.2 in ascending order of code, with 0x52 exactly while LIVE, 0x05 and 0x06 for a
defined extent, 0x02 for a global one and 0x59 exactly while its timer is COUNTING; a slot shows 0x5B, 0x26 and
0x27 where its state has them, and never its key material. -/
def Obligations.QueriesReport : Prop :=
  ∀ (r : Request) (s : State), Accepts s →
    (∀ e, extentOnly? r = some e → s.extents[e] = none →
      exec (.queryExtent r) s = .next (sent (answerTo .queryExtent r .ok [item1 0x50 0x00]) s)) ∧
    (∀ e x, extentOnly? r = some e → s.extents[e] = some x →
      exec (.queryExtent r) s =
        .next (sent
          (answerTo .queryExtent r .ok
            ([itemN 0x01 1 x.ns.val]
              ++ (if x.span.isNone then [itemN 0x02 6 s.namespaces[x.ns].size] else [])
              ++ [itemN 0x04 1 x.handle.val]
              ++ (match x.span with
                  | some p => [itemN 0x05 5 p.first, itemN 0x06 5 p.last]
                  | none => [])
              ++ [itemN 0x10 1 x.policy.tryLimit, item1 0x11 x.policy.maskLocked.code,
                  item1 0x12 x.policy.maskKeyErased.code, item1 0x13 x.policy.maskKeyAbsent.code,
                  item1 0x14 x.policy.maskTagMismatch.code, item1 0x15 x.policy.fillByte,
                  item1 0x16 (boolCode x.policy.reportConditions),
                  item1 0x17 (boolCode x.policy.lockOnHold), item1 0x18 x.policy.idleMode.code,
                  itemN 0x19 2 x.policy.idleCount, item1 0x1A x.policy.idleStep.code,
                  item1 0x1B (boolCode x.policy.forgetOnIdle), itemN 0x1C 6 x.policy.usageLimit,
                  item1 0x1D (boolCode x.policy.stopAtLimit), item1 0x50 0x01,
                  item1 0x51 x.key.code]
              ++ (match x.key with
                  | .live k => [itemN 0x52 1 k.val]
                  | _ => [])
              ++ [item1 0x53 (boolCode x.readLock), item1 0x54 (boolCode x.writeLock),
                  item1 0x55 (boolCode x.barred), itemN 0x56 1 x.tryCount,
                  item1 0x57 (boolCode x.storeStale), itemN 0x58 1 (jobsNaming e s)]
              ++ (match s.timers[e] with
                  | .counting n => [itemN 0x59 3 n]
                  | _ => []))) s)) ∧
    (∀ k, slotOnly? r = some k →
      let v := s.slots[k]
      let key : Option LoadedKey :=
        match v.state with
        | .ready _ key => some key
        | .draining key => some key
        | _ => none
      let bound : Option ExtentId :=
        match v.state with
        | .loading e => some e
        | .ready e _ => some e
        | _ => none
      exec (.querySlot r) s =
        .next (sent
          (answerTo .querySlot r .ok
            ([itemN 0x1C 6 v.limit, item1 0x1D (boolCode v.stopAtLimit)]
              ++ (match key with
                  | some key => [item1 0x26 key.size.code, item1 0x27 key.mode.code]
                  | none => [])
              ++ [item1 0x5A v.state.code]
              ++ (match bound with
                  | some e => [itemN 0x5B 1 e.val]
                  | none => [])
              ++ [itemN 0x5C 1 v.pins, itemN 0x5D 6 v.usage, item1 0x5E (boolCode v.worn)])) s))

/-! ## Keys -/

/-- UNLOCK: its checks 2 to 5 in their order, and otherwise it executes: the credential stands in the working
context, READ RECORD of the extent's handle is asked for, and the lowest EMPTY slot is LOADING where the key
status is NONE; no extent field changes and no answer leaves. -/
def Obligations.UnlockBegins : Prop :=
  ∀ (r : Request) (a : UnlockArgs) (s : State), Accepts s → unlockArgs? r = some a →
    let refusedWith (c : ResultCode) : Prop :=
      exec (.unlock r) s = .next (sent (answerTo .unlock r c []) s)
    let begun (slot : Option SlotId) (t : State) : State :=
      { t with
        executing := some { seq := r.seq, request := .unlock a.extent a.dirs slot }
        context := { credential := some a.credential, newCredential := none, wrappingKeys := []
                     recordRead := none, recordBuilt := none, key := none } }
    (s.extents[a.extent] = none → refusedWith .noExtent) ∧
    (∀ x, s.extents[a.extent] = some x →
      (x.barred = true → refusedWith .barred) ∧
      (x.barred = false → x.key = .erased → refusedWith .keyErased) ∧
      (x.barred = false → x.key = .none → (∀ k : SlotId, s.slots[k].state ≠ .empty) →
        refusedWith .noSlot) ∧
      (∀ k : SlotId, x.barred = false → x.key = .none → s.slots[k].state = .empty →
        (∀ i : SlotId, i < k → s.slots[i].state ≠ .empty) →
        exec (.unlock r) s =
          .next (begun (some k)
            { s with
              slots := s.slots.set k
                { state := .loading a.extent, pins := 0, usage := 0, limit := 0
                  stopAtLimit := false, worn := false }
              link := askedRead x.handle s.link })) ∧
      (∀ k, x.barred = false → x.key = .live k →
        exec (.unlock r) s = .next (begun none { s with link := askedRead x.handle s.link })))

/-- LOCK: NO_EXTENT for a FREE record, and otherwise, after the cut of the jobs it names in CUT mode, the named
locks are set, with forget the extent is released, the timer is judged again, and the answer carries key
status, the slot left DRAINING if any, and both locks. -/
def Obligations.LockIsCarriedOut : Prop :=
  ∀ (r : Request) (a : LockArgs) (s : State), Accepts s → lockArgs? r = some a →
    (s.extents[a.extent] = none →
      exec (.lock r) s = .next (sent (answerTo .lock r .noExtent []) s)) ∧
    (∀ x, s.extents[a.extent] = some x → boundSlot a.extent x s →
      let u : State :=
        if a.cut then
          cutJobs
            (fun j => decide (j.extent = a.extent) &&
              (a.forget ||
                (match j.direction with
                  | .encipher => a.dirs.write
                  | .decipher => a.dirs.read)))
            .cutLock s
        else s
      let y : Extent :=
        { x with readLock := x.readLock || a.dirs.read, writeLock := x.writeLock || a.dirs.write
                 key := if a.forget = true ∧ x.key.isLive = true then .none else x.key }
      exec (.lock r) s =
        .next (sent
          (answerTo .lock r .ok
            ([item1 0x51 y.key.code]
              ++ (match a.forget, drainingSlot x u with
                  | true, some k => [itemN 0x52 1 k.val]
                  | _, _ => [])
              ++ [item1 0x53 (boolCode y.readLock), item1 0x54 (boolCode y.writeLock)]))
          { u with
            extents := u.extents.set a.extent (some y)
            slots := if a.forget then releasedSlots x u else u.slots
            timers := u.timers.set a.extent
              (keptTimer y (jobsNaming a.extent u) u.timers[a.extent]) }))

/-- REWRAP: its checks 2 to 5 in their order, and otherwise it executes with both credentials in the working
context and READ RECORD of the extent's handle asked for. -/
def Obligations.RewrapBegins : Prop :=
  ∀ (r : Request) (a : RewrapArgs) (s : State), Accepts s → rewrapArgs? r = some a →
    let refusedWith (c : ResultCode) : Prop :=
      exec (.rewrap r) s = .next (sent (answerTo .rewrap r c []) s)
    (s.extents[a.extent] = none → refusedWith .noExtent) ∧
    (∀ x, s.extents[a.extent] = some x →
      (x.barred = true → refusedWith .barred) ∧
      (x.barred = false → x.key = .erased → refusedWith .keyErased) ∧
      (x.barred = false → x.key ≠ .erased → s.random.state ≠ .ready → refusedWith .notReady) ∧
      (x.barred = false → x.key ≠ .erased → s.random.state = .ready →
        exec (.rewrap r) s =
          .next
            { s with
              executing := some { seq := r.seq, request := .rewrap a.extent false }
              context := { credential := some a.old, newCredential := some a.new, wrappingKeys := []
                           recordRead := none, recordBuilt := none, key := none }
              link := askedRead x.handle s.link }))

/-- ERASE: NO_EXTENT for a FREE record, and otherwise, after the cut of the extent's jobs in CUT mode, the
extent is released and ERASED, its bar and tries are cleared, its timer is disarmed, and the write of the VOID
record is asked for; the request waits for the drain where the release left the slot DRAINING. The locks and
store stale stay. That the VOID record stands in the working context from here on is the model's choice (log 27). -/
def Obligations.EraseBegins : Prop :=
  ∀ (r : Request) (a : EraseArgs) (s : State), Accepts s → eraseArgs? r = some a →
    (s.extents[a.extent] = none →
      exec (.erase r) s = .next (sent (answerTo .erase r .noExtent []) s)) ∧
    (∀ x, s.extents[a.extent] = some x → boundSlot a.extent x s →
      let u : State :=
        if a.cut then cutJobs (fun j => decide (j.extent = a.extent)) .cutErase s else s
      let void : KeyRecord :=
        { marker := 0, keySize := 0, mode := 0, handleEcho := 0, salt := 0, wrapped := 0, tag := 0 }
      exec (.erase r) s =
        .next
          { u with
            extents := u.extents.set a.extent
              (some { x with key := .erased, barred := false, tryCount := 0 })
            slots := releasedSlots x u
            timers := u.timers.set a.extent .disarmed
            executing :=
              some { seq := r.seq, request := .erase a.extent (drainingSlot x u) none }
            context := { credential := none, newCredential := none, wrappingKeys := []
                         recordRead := none, recordBuilt := some void, key := none }
            link := askedWrite x.handle void u.link })

/-- GENERATE: its checks 2 to 5 in their order, and otherwise the lowest EMPTY slot is LOADING, a key of the
requested size and a salt are drawn, the VALID record is built with the extent's handle as its echo, and its
write is asked for; the extent is not changed. The drawn values are the free values of Config at the model's
counter (log 10), and that the wrapping key, the built record and the key enter the working context here is the
model's choice (log 27). -/
def Obligations.GenerateBegins : Prop :=
  ∀ (r : Request) (a : GenerateArgs) (s : State), Accepts s → generateArgs? r = some a →
    let refusedWith (c : ResultCode) : Prop :=
      exec (.generate r) s = .next (sent (answerTo .generate r c []) s)
    (s.extents[a.extent] = none → refusedWith .noExtent) ∧
    (∀ x, s.extents[a.extent] = some x →
      (x.key ≠ .erased → refusedWith .keyPresent) ∧
      (x.key = .erased → s.random.state ≠ .ready → refusedWith .notReady) ∧
      (x.key = .erased → s.random.state = .ready → (∀ k : SlotId, s.slots[k].state ≠ .empty) →
        refusedWith .noSlot) ∧
      (∀ k : SlotId, x.key = .erased → s.random.state = .ready → s.slots[k].state = .empty →
        (∀ i : SlotId, i < k → s.slots[i].state ≠ .empty) →
        let key : LoadedKey :=
          { block := fitKey a.size (Config.randomKey s.draws), size := a.size, mode := a.mode }
        let salt := Config.randomSalt s.draws
        let record := buildRecord a.credential salt (BitVec.ofNat 8 x.handle.val) key
        exec (.generate r) s =
          .next
            { s with
              draws := s.draws + 1
              slots := s.slots.set k
                { state := .loading a.extent, pins := 0, usage := 0, limit := 0
                  stopAtLimit := false, worn := false }
              executing := some { seq := r.seq, request := .generate a.extent a.dirs k }
              context :=
                { credential := some a.credential, newCredential := none
                  wrappingKeys := [wrappingKey a.credential salt], recordRead := none
                  recordBuilt := some record, key := some key }
              link := askedWrite x.handle record s.link }))

/-- A record is judged test by test: KEY_VOID for a VOID marker, RECORD_BAD for any other marker than VALID, a
handle echo that differs or an unknown key size or mode, BAD_CREDENTIAL where the record tag under the
credential's wrapping key differs, and otherwise sound with the unwrapped key. The record built under a
credential for a key is sound under that credential at its handle, with that key. -/
def Obligations.RecordsAreJudgedInOrder : Prop :=
  (∀ (c : Credential) (h : Handle) (r : KeyRecord),
    let sizeOk : Prop := r.keySize = 0x01 ∨ r.keySize = 0x02
    let modeOk : Prop := r.mode = 0x01 ∨ r.mode = 0x02
    let wk := Config.deriveWrappingKey Config.deviceSecret c r.salt
    (r.marker = 0x00 → judgeRecord c h r = .keyVoid) ∧
    (r.marker ≠ 0x00 → r.marker ≠ 0xA5 → judgeRecord c h r = .recordBad) ∧
    (r.marker = 0xA5 → r.handleEcho.toNat ≠ h.val → judgeRecord c h r = .recordBad) ∧
    (r.marker = 0xA5 → r.handleEcho.toNat = h.val → ¬(sizeOk ∧ modeOk) →
      judgeRecord c h r = .recordBad) ∧
    (r.marker = 0xA5 → r.handleEcho.toNat = h.val → sizeOk → modeOk →
      r.tag ≠ Config.recordTag wk (coveredBytes r) → judgeRecord c h r = .badCredential) ∧
    (r.marker = 0xA5 → r.handleEcho.toNat = h.val → sizeOk → modeOk →
      r.tag = Config.recordTag wk (coveredBytes r) →
      judgeRecord c h r =
        .sound
          { size := if r.keySize = 0x01 then .k256 else .k512
            mode := if r.mode = 0x01 then .tweak else .tagged
            block :=
              if r.keySize = 0x01 then
                (((Config.keyWrap wk).symm r.wrapped) >>> 256) <<< 256
              else (Config.keyWrap wk).symm r.wrapped })) ∧
  (∀ (c : Credential) (salt : Salt) (h : Handle) (k : LoadedKey), fitKey k.size k.block = k.block →
    judgeRecord c h (buildRecord c salt (BitVec.ofNat 8 h.val) k) = .sound k)

/-- The READ RECORD of an UNLOCK ends. Sound: the allocated slot, if any, is READY with the key, a counter of 0 and
the extent's limits, and the extent LIVE; the requested locks are cleared, the try count is 0, the timer starts at its
full count where armed; answered OK. The record is the bytes received so far and, for those still missing, the bytes
that the command brings (the model's choice, log 5). BAD_CREDENTIAL: a try is counted, the extent is barred and BARRED
set where its limit is reached; answered with barred and try count. KEY_VOID and RECORD_BAD: no field changes. Every
failure empties the allocated slot. -/
def Obligations.UnlockEndsByItsVerdict : Prop :=
  (∀ (w : Transaction) (rest : KeyRecord), w.record.length ≤ 100 →
    recordBytes (completeRecord w rest) = w.record ++ (recordBytes rest).drop w.record.length) ∧
  (∀ (w : Transaction) (rest : KeyRecord), w.record = [] → completeRecord w rest = rest) ∧
  ∀ (rest : KeyRecord) (w : Transaction) (seq : Byte) (e : ExtentId) (d : Directions)
    (slot : Option SlotId) (c : Credential) (x : Extent) (s : State),
    inProgress .readRecord w .finalStop s → s.link.operation = none →
    s.executing = some { seq := seq, request := .unlock e d slot } → s.context.credential = some c →
    s.extents[e] = some x →
    let got := completeRecord w rest
    let t : State := { s with link := rested .idle .free false s.link }
    let failed : State :=
      { t with
        slots :=
          match slot with
          | some k =>
            s.slots.set k
              { state := .empty, pins := 0, usage := 0, limit := 0, stopAtLimit := false
                worn := false }
          | none => s.slots }
    (∀ key, judgeRecord c w.handle got = .sound key →
      let y : Extent :=
        { x with
          key :=
            match slot with
            | some k => .live k
            | none => x.key
          readLock := x.readLock && !d.read, writeLock := x.writeLock && !d.write, tryCount := 0 }
      exec (.readRecordEnd rest) s =
        .next (ended .unlock seq .ok
          ([item1 0x51 y.key.code]
            ++ (match y.key with
                | .live k => [itemN 0x52 1 k.val]
                | _ => [])
            ++ [item1 0x53 (boolCode y.readLock), item1 0x54 (boolCode y.writeLock),
                itemN 0x56 1 0])
          { t with
            extents := s.extents.set e (some y)
            slots :=
              match slot with
              | some k =>
                s.slots.set k
                  { state := .ready e key, pins := 0, usage := 0, limit := x.policy.usageLimit
                    stopAtLimit := x.policy.stopAtLimit, worn := false }
              | none => s.slots
            timers := s.timers.set e (freshTimer y (jobsNaming e s)) })) ∧
    (judgeRecord c w.handle got = .badCredential →
      let n := x.tryCount + 1
      let y : Extent :=
        { x with tryCount := n, barred := if n = x.policy.tryLimit then true else x.barred }
      let u : State :=
        ended .unlock seq .badCredential [item1 0x55 (boolCode y.barred), itemN 0x56 1 n]
          { failed with extents := s.extents.set e (some y) }
      exec (.readRecordEnd rest) s =
        .next (if n = x.policy.tryLimit then setFlag .barred u else u)) ∧
    (judgeRecord c w.handle got = .keyVoid →
      exec (.readRecordEnd rest) s = .next (ended .unlock seq .keyVoid [] failed)) ∧
    (judgeRecord c w.handle got = .recordBad →
      exec (.readRecordEnd rest) s = .next (ended .unlock seq .recordBad [] failed))

/-- The READ RECORD of a REWRAP ends with a sound record: the try count becomes 0, and with the Random Source
READY a salt is drawn, the record is built anew under the new credential with the key, size, mode and echo of
the record read, and its write at the same handle is asked for; otherwise the request ends NOT_READY. With
BAD_CREDENTIAL a try is counted, the extent is barred and BARRED set where its limit is reached, and the request
ends; with KEY_VOID or RECORD_BAD it ends and no field changes. A LINK failure of the read ends it with that code
and sets LINK_FAIL, no field changes, and the answer carries no data (the model's choice, log 31); that a stretch in
the final stop of that read, whose bytes are all in, gives STRETCH_TIMEOUT is DEDUCED (log 29). The salt is the
free value of Config at the model's counter (log 10); that both wrapping keys, the record read, the record built
and the key stand in the working context after the proof is the model's choice (log 27). -/
def Obligations.RewrapProofStartsItsWrite : Prop :=
  (∀ (w : Transaction) (c : Instr) (f : LinkEnd) (seq : Byte) (e : ExtentId) (s : State),
    failsBy s w c f → w.kind = .readRecord → s.power = .run → s.link.operation = none →
    s.executing = some { seq := seq, request := .rewrap e false } →
    s.context.credential.isSome = true → s.context.newCredential.isSome = true →
    exec c s = .next (ended .rewrap seq f.code.result [] (linkFailed f s))) ∧
  ∀ (rest : KeyRecord) (w : Transaction) (seq : Byte) (e : ExtentId) (old new : Credential)
    (x : Extent) (s : State),
    inProgress .readRecord w .finalStop s → s.link.operation = none →
    s.executing = some { seq := seq, request := .rewrap e false } →
    s.context.credential = some old → s.context.newCredential = some new →
    s.extents[e] = some x →
    let got := completeRecord w rest
    let read : State := { s with link := rested .idle .free false s.link }
    let t : State := { read with extents := s.extents.set e (some { x with tryCount := 0 }) }
    (∀ key, judgeRecord old w.handle got = .sound key → s.random.state ≠ .ready →
      exec (.readRecordEnd rest) s = .next (ended .rewrap seq .notReady [] t)) ∧
    (judgeRecord old w.handle got = .badCredential →
      let n := x.tryCount + 1
      let y : Extent :=
        { x with tryCount := n, barred := if n = x.policy.tryLimit then true else x.barred }
      let u : State :=
        ended .rewrap seq .badCredential [item1 0x55 (boolCode y.barred), itemN 0x56 1 n]
          { read with extents := s.extents.set e (some y) }
      exec (.readRecordEnd rest) s =
        .next (if n = x.policy.tryLimit then setFlag .barred u else u)) ∧
    (judgeRecord old w.handle got = .keyVoid →
      exec (.readRecordEnd rest) s = .next (ended .rewrap seq .keyVoid [] read)) ∧
    (judgeRecord old w.handle got = .recordBad →
      exec (.readRecordEnd rest) s = .next (ended .rewrap seq .recordBad [] read)) ∧
    (∀ key, judgeRecord old w.handle got = .sound key → s.random.state = .ready →
      let salt := Config.randomSalt s.draws
      let record := buildRecord new salt got.handleEcho key
      exec (.readRecordEnd rest) s =
        .next
          { t with
            draws := s.draws + 1
            executing := some { seq := seq, request := .rewrap e true }
            context :=
              { credential := some old, newCredential := some new
                wrappingKeys := [wrappingKey old got.salt, wrappingKey new salt]
                recordRead := some got, recordBuilt := some record, key := some key }
            link := askedWrite w.handle record (rested .idle .free false s.link) })

/-- A WRITE RECORD whose final stop completes makes the link FREE, sets write begun and final stop sent in the
operation state, and begins the read-back of the same handle in the same rule; the request stays executing. When the
read-back ends, its bytes are compared with those written. Equal: a GENERATE loads its key, its extent becomes LIVE
with the requested locks cleared and store stale no; an ERASE has store stale no and is answered OK; a REWRAP is
answered OK; each with phase VERIFIED where the answer carries one. Different: a GENERATE and a REWRAP end VERIFY_FAIL
with phase UNCERTAIN, and an ERASE has store stale yes, STORE_STALE set, and is answered STORE_NOT_VOIDED. An ERASE
that waits for its drain is not answered yet. A WRITE RECORD whose handle byte or data byte is not acknowledged ends
NACK_DATA with phase UNCERTAIN and sets LINK_FAIL: a GENERATE ends with that code and its slot is EMPTY, a REWRAP ends
with it, and an ERASE has store stale yes and is answered STORE_NOT_VOIDED with it as the cause. So does every other
LINK failure, in the write or in its read-back, with the phase that the write facts give; an ERASE that waits for its
drain keeps result and write facts for its answer. That a stretch in the final stop of the read-back, whose bytes are
all in, gives STRETCH_TIMEOUT is DEDUCED (log 29); that an opening start broken in it has not begun the write is the
model's choice (log 32). -/
def Obligations.WriteOperationIsReadBack : Prop :=
  (∀ f : WriteFacts,
    f.phase =
      if f.verified then .verified else if f.writeBegun then .uncertain else .notBegun) ∧
  (∀ (w : Transaction) (o : WriteOperation) (seq : Byte) (c : Instr) (f : LinkEnd) (s : State),
    failsBy s w c f → s.power = .run → s.link.operation = some o →
    let t := linkFailed f s
    let facts := factsReached f.transaction (some o)
    let phase := item1 0x60 facts.phase.code
    (∀ e d k, s.executing = some { seq := seq, request := .generate e d k } →
      exec c s =
        .next (ended .generate seq f.code.result [phase]
          { t with
            slots := s.slots.set k
              { state := .empty, pins := 0, usage := 0, limit := 0, stopAtLimit := false
                worn := false } })) ∧
    (∀ e, s.executing = some { seq := seq, request := .rewrap e true } →
      exec c s = .next (ended .rewrap seq f.code.result [phase] t)) ∧
    (∀ e drain x, s.executing = some { seq := seq, request := .erase e drain none } →
      s.extents[e] = some x →
      let u := setFlag .storeStale
        { t with extents := s.extents.set e (some { x with storeStale := true }) }
      exec c s =
        .next
          (match drain with
            | none =>
              ended .erase seq .storeNotVoided
                [item1 0x57 0x01, phase, item1 0x61 f.code.result.code] u
            | some k =>
              { u with
                executing := some
                  { seq := seq
                    request := .erase e (some k)
                      (some { outcome := .failed f.code, facts := facts }) } }))) ∧
  (∀ (w : Transaction) (o : WriteOperation) (s : State),
    inProgress .writeRecord w .finalStop s → s.link.operation = some o →
    exec .writeRecordEnd s =
      .next
        { s with
          link :=
            { askedRead w.handle (rested .idle .free false s.link) with
              operation := some { o with writeBegun := true, finalStopSent := true } } }) ∧
  (∀ (b : NackedByte) (w : Transaction) (o : WriteOperation) (seq : Byte) (s : State),
    s.powered = true → s.link.transaction = some w → w.kind = .writeRecord →
    canMissAck s.link w b = true → s.link.operation = some o → o.verified = false →
    let t : State := setFlag .linkFail { s with link := rested .idle .free false s.link }
    (∀ e d k, s.executing = some { seq := seq, request := .generate e d k } →
      exec (.nackData b) s =
        .next (ended .generate seq .nackData [item1 0x60 0x02]
          { t with
            slots := s.slots.set k
              { state := .empty, pins := 0, usage := 0, limit := 0, stopAtLimit := false
                worn := false } })) ∧
    (∀ e, s.executing = some { seq := seq, request := .rewrap e true } →
      exec (.nackData b) s = .next (ended .rewrap seq .nackData [item1 0x60 0x02] t)) ∧
    (∀ e x, s.executing = some { seq := seq, request := .erase e none none } →
      s.extents[e] = some x →
      exec (.nackData b) s =
        .next (ended .erase seq .storeNotVoided
          [item1 0x57 0x01, item1 0x60 0x02, item1 0x61 0x61]
          (setFlag .storeStale
            { t with extents := s.extents.set e (some { x with storeStale := true }) })))) ∧
  ∀ (rest : KeyRecord) (w : Transaction) (o : WriteOperation) (seq : Byte) (s : State),
    inProgress .readRecord w .finalStop s → s.link.operation = some o → o.writeBegun = true →
    o.verified = false →
    let got := completeRecord w rest
    let t : State := { s with link := rested .idle .free false s.link }
    (∀ e d k key x, s.executing = some { seq := seq, request := .generate e d k } →
      s.context.key = some key → s.extents[e] = some x →
      let y : Extent :=
        { x with key := .live k, readLock := x.readLock && !d.read
                 writeLock := x.writeLock && !d.write, storeStale := false }
      (got = o.bytes →
        exec (.readRecordEnd rest) s =
          .next (ended .generate seq .ok
            [item1 0x26 key.size.code, item1 0x27 key.mode.code, itemN 0x52 1 k.val,
              item1 0x53 (boolCode y.readLock), item1 0x54 (boolCode y.writeLock)]
            { t with
              extents := s.extents.set e (some y)
              slots := s.slots.set k
                { state := .ready e key, pins := 0, usage := 0, limit := x.policy.usageLimit
                  stopAtLimit := x.policy.stopAtLimit, worn := false }
              timers := s.timers.set e (freshTimer y (jobsNaming e s)) })) ∧
      (got ≠ o.bytes →
        exec (.readRecordEnd rest) s =
          .next (ended .generate seq .verifyFail [item1 0x60 0x02]
            { t with
              slots := s.slots.set k
                { state := .empty, pins := 0, usage := 0, limit := 0, stopAtLimit := false
                  worn := false } }))) ∧
    (∀ e drain x, s.executing = some { seq := seq, request := .erase e drain none } →
      s.extents[e] = some x →
      let same := decide (got = o.bytes)
      let settled : State := { t with extents := s.extents.set e (some { x with storeStale := !same }) }
      let u : State := if same then settled else setFlag .storeStale settled
      exec (.readRecordEnd rest) s =
        .next
          (match drain, same with
            | none, true =>
              ended .erase seq .ok [item1 0x51 x.key.code, item1 0x57 0x00, item1 0x60 0x03] u
            | none, false =>
              ended .erase seq .storeNotVoided
                [item1 0x57 0x01, item1 0x60 0x02, item1 0x61 0x48] u
            | some k, _ =>
              { u with
                executing := some
                  { seq := seq
                    request := .erase e (some k)
                      (some
                        { outcome := if same then .verified else .differs
                          facts := { o.toWriteFacts with verified := same } }) } })) ∧
    (∀ e, s.executing = some { seq := seq, request := .rewrap e true } →
      exec (.readRecordEnd rest) s =
        .next
          (if got = o.bytes then ended .rewrap seq .ok [item1 0x60 0x03] t
          else ended .rewrap seq .verifyFail [item1 0x60 0x02] t))

/-! ## The Key Store Link -/

/-- The READ RECORD of an UNLOCK fails: the 24th unacknowledged address gives NO_DEVICE, an unacknowledged handle
byte NACK_DATA, a stretch beyond the limit STRETCH_TIMEOUT, the expiry of the free-wait timer LINK_STUCK and a
fourth loss LOST; in the stop after a NACK_DATA or after the 24th address a stretch or a collision gives the code
already decided. The request is answered with that code, its slot is EMPTY, LINK_FAIL is set, no try is
counted, and the Link Master is IDLE, or rests in WAIT_FREE with the release watch set after a stretch. That a
stretch in the final stop of the read, whose bytes are all in, gives STRETCH_TIMEOUT is DEDUCED (log 29). -/
def Obligations.LinkFailureEndsUnlock : Prop :=
  ∀ (w : Transaction) (seq : Byte) (e : ExtentId) (d : Directions) (slot : Option SlotId)
    (c : Credential) (s : State),
    s.powered = true → s.power = .run → s.link.transaction = some w → w.kind = .readRecord →
    s.link.operation = none →
    s.executing = some { seq := seq, request := .unlock e d slot } → s.context.credential = some c →
    let failed (f : ResultCode) (st : LinkState) (tr : Tracking) (watch : Bool) : State :=
      setFlag .linkFail
        (ended .unlock seq f []
          { s with
            link := rested st tr watch s.link
            slots :=
              match slot with
              | some k =>
                s.slots.set k
                  { state := .empty, pins := 0, usage := 0, limit := 0, stopAtLimit := false
                    worn := false }
              | none => s.slots })
    (canMeet s.link w .addressStop = true → w.addressAttempts = 23 →
      exec .addressNotAcknowledged s = .next (failed .noDevice .idle .free false)) ∧
    (canMissAck s.link w .handleByte = true →
      exec (.nackData .handleByte) s = .next (failed .nackData .idle .free false)) ∧
    (∀ p, canMeet s.link w p = true → p ≠ .addressStop → p ≠ .nackStop →
      exec (.stretchTimeout p) s = .next (failed .stretchTimeout .waitFree .busyOther true)) ∧
    (s.link.state = .waitFree → s.link.freeWait.isSome = true →
      exec .freeWaitExpiry s =
        .next (failed .linkStuck .idle s.link.tracking s.link.releaseWatch)) ∧
    (∀ p rec, canMeet s.link w p = true → checksLine s.link w p = true → w.lossCount = 3 →
      p ∈ [.openingStart, .writeAddress, .handleByte, .repeatedStart, .readAddress] →
      exec (.collision p rec) s = .next (failed .lost .idle .busyOther s.link.releaseWatch)) ∧
    (canMeet s.link w .nackStop = true → ∀ rec,
      exec (.stretchTimeout .nackStop) s = .next (failed .nackData .waitFree .busyOther true) ∧
      exec (.collision .nackStop rec) s =
        .next (failed .nackData .idle .busyOther s.link.releaseWatch)) ∧
    (canMeet s.link w .addressStop = true → w.addressAttempts = 23 → ∀ rec,
      exec (.stretchTimeout .addressStop) s =
        .next (failed .noDevice .waitFree .busyOther true) ∧
      exec (.collision .addressStop rec) s =
        .next (failed .noDevice .idle .busyOther s.link.releaseWatch)) ∧
    (canMeet s.link w .addressStop = true → w.addressAttempts ≠ 23 →
      exec (.stretchTimeout .addressStop) s =
        .next (failed .stretchTimeout .waitFree .busyOther true) ∧
      (w.lossCount = 3 → ∀ rec,
        exec (.collision .addressStop rec) s =
          .next (failed .lost .idle .busyOther s.link.releaseWatch))) ∧
    (∀ c f, failsBy s w c f → exec c s = .next (failed f.code.result f.rest f.tracking f.watch))

/-- An unacknowledged address short of the 24th makes the link FREE, raises the address attempts and enters POLL_WAIT;
at the end of the wait the attempt begins again from the opening start, at once where the link is FREE and after a
wait with a fresh free-wait timer where it is not. The loss count and final stop sent stay, and so does write begun;
but where the model's transaction still stood at its opening start, that start has been made with the address, and a
WRITE RECORD has begun (the model's choice of elements, log 4). The record bytes that an earlier attempt of a READ
RECORD received are discarded as the new one begins. The fields stopCause and phase are the model's own (logs 22 and
33). -/
def Obligations.UnacknowledgedAddressIsPolled : Prop :=
  ∀ (w : Transaction) (s : State), s.powered = true → s.link.transaction = some w →
    (canMeet s.link w .addressStop = true → w.addressAttempts < 23 →
      exec .addressNotAcknowledged s =
        .next
          { s with
            link :=
              { s.link with
                state := .pollWait, tracking := .free, releaseWatch := false
                transaction := some
                  { w with
                    addressAttempts := w.addressAttempts + 1, position := .address
                    stopCause := .final, phase := 0
                    writeBegun := w.writeBegun || decide (w.kind = .writeRecord) } } }) ∧
    (s.link.state = .pollWait →
      exec .pollWaitEnd s = .next { s with link := attempting w s.link })

/-- A collision counts a loss below the fourth: the link is BUSY_OTHER and the whole transaction waits with a fresh
free-wait timer to begin again; so also in the stop after an unacknowledged address short of the 24th. A collision in
the not-acknowledge after the 100th byte or in the stop of a READ RECORD counts none: the read ends OK exactly as its
own stop would end it, whether an UNLOCK, the proof of a REWRAP or a write operation asked for it, but with the link
BUSY_OTHER, so that the write which a REWRAP then asks for waits for the link. A collision is met only where the part
checks for one: in a byte that it sends, at a 1 bit whose step with KSCL high is not over, so neither past the last 1
bit nor in the acknowledge bit, and in the other elements of R130; a COLLISION anywhere else changes nothing (the
model's choice, log 2). An opening start that a collision breaks counts as not made, and write begun stays as it was
(the model's choice, log 32). The bytes it sends are the device address of SET LINK with the direction bit below it,
the handle, and the bytes of the record written, each with its most significant bit first: KSDA is set with KSCL low
and stands with KSCL high, low for a 0 and released for a 1, and is released for the acknowledge bit. It acknowledges
each of the first 99 bytes it receives, but none while abandoning, and not the 100th. In a start KSDA falls, in a stop
it is released, with KSCL high. Off the link and without power both lines are released. Into how many steps each is
cut, and that phase counts them, is the model's choice (log 33), and so is stopCause (log 22). -/
def Obligations.CollisionLosesOrCompletes : Prop :=
  (∀ (w : Transaction) (l : LinkMaster) (p : LinkPoint),
    let addressed (read : Nat) : Byte := BitVec.ofNat 8 (2 * l.settings.deviceAddress.toNat + read)
    sentByte l w .writeAddress = some (addressed 0) ∧
    sentByte l w .readAddress = some (addressed 1) ∧
    (∃ b, sentByte l w .handleByte = some b ∧ b.toNat = w.handle.val) ∧
    (∀ r k, w.record = recordBytes r → sentByte l w (.dataByte k) = (recordBytes r)[k.val]?) ∧
    (∀ b, sentByte l w p = some b →
      (checksLine l w p = true ↔
        ∃ n, n < 8 ∧ b.getLsbD (7 - n) = true ∧ (p = currentElement l w → w.phase ≤ 2 * n + 1))) ∧
    (sentByte l w p = none → checksLine l w p = p.collisionPoint)) ∧
  (∀ (w : Transaction) (l : LinkMaster),
    let low (ksda : Drive) : Lines := { kscl := .low, ksda := ksda }
    let high (ksda : Drive) : Lines := { kscl := .released, ksda := ksda }
    let bit (n : Nat) (ksda : Drive) (steps : List Lines) : Prop :=
      steps[2 * n]? = some (low ksda) ∧ steps[2 * n + 1]? = some (high ksda)
    elementLines l w .openingStart = [high .released, high .low] ∧
    elementLines l w .repeatedStart = [low .released, high .released, high .low] ∧
    (∀ p ∈ [.finalStop, .addressStop, .nackStop],
      elementLines l w p = [low .low, high .low, high .released]) ∧
    (∀ p b, sentByte l w p = some b →
      let steps := elementLines l w p
      steps.length = 18 ∧ bit 8 .released steps ∧
        ∀ n, n < 8 → bit n (if b.getLsbD (7 - n) then .released else .low) steps) ∧
    ∀ k : Fin 100,
      let steps := elementLines l w (.receiveByte k)
      steps.length = 18 ∧
        bit 8 (if k.val = 99 ∨ w.abandoning = true then .released else .low) steps ∧
        ∀ n, n < 8 → bit n .released steps) ∧
  (∀ s : State,
    let free : Lines := { kscl := .released, ksda := .released }
    (s.powered = false ∨ s.link.state.holdsLink = false ∨ s.link.transaction = none →
      drivenLines s = free) ∧
    ∀ x, s.powered = true → s.link.state.holdsLink = true → s.link.transaction = some x →
      drivenLines s = (elementLines s.link x (currentElement s.link x)).getD x.phase free) ∧
  ∀ (w : Transaction) (rec : KeyRecord) (s : State),
    s.powered = true → s.power = .run → s.link.transaction = some w →
    let again (p : LinkPoint) (attempts : Nat) : State :=
      { s with
        link :=
          { s.link with
            state := .waitFree, tracking := .busyOther
            freeWait := some s.link.settings.freeWaitLimit
            transaction := some
              { w with
                lossCount := w.lossCount + 1, addressAttempts := attempts, position := .address
                stopCause := .final, phase := 0
                record := if w.kind = .readRecord then [] else w.record
                writeBegun :=
                  w.writeBegun ||
                    (decide (w.kind = .writeRecord) && decide (p ≠ .openingStart)) } } }
    (∀ p, canMeet s.link w p = true → w.lossCount < 3 → checksLine s.link w p = true →
      p ≠ .addressStop → p ≠ .nackStop →
      (w.kind = .readRecord → p ≠ .finalStop ∧ p ≠ .receiveByte 99) →
      exec (.collision p rec) s = .next (again p w.addressAttempts)) ∧
    (canMeet s.link w .addressStop = true → w.lossCount < 3 → w.addressAttempts < 23 →
      exec (.collision .addressStop rec) s = .next (again .addressStop (w.addressAttempts + 1))) ∧
    (∀ p, checksLine s.link w p = false → exec (.collision p rec) s = .next s) ∧
    (∀ p, p = .finalStop ∨ p = .receiveByte 99 → w.kind = .readRecord →
      canMeet s.link w p = true →
      ∃ t, exec (.readRecordEnd rec) s = .next t ∧
        exec (.collision p rec) s =
          .next
            { t with
              link :=
                let busy : LinkMaster :=
                  { t.link with tracking := .busyOther, releaseWatch := s.link.releaseWatch }
                match t.link.transaction with
                | none => busy
                | some x => attempting x busy })

/-- A start of the other master makes the link BUSY_OTHER. A stop makes it FREE and clears the release watch: a
transaction that waits for the link enters START and its free-wait timer stops, and a Link Master that rests
without one becomes IDLE. 16 quiet bit periods do the same while the release watch is set, and nothing while
it is clear. -/
def Obligations.LinkTrackingFollowsTheLines : Prop :=
  ∀ s : State, s.powered = true →
    let free : LinkMaster := { s.link with tracking := .free, releaseWatch := false }
    let heard : State :=
      { s with
        link :=
          if s.link.state = .waitFree then
            match s.link.transaction with
            | some w => attempting w free
            | none => { free with state := .idle, freeWait := none }
          else free }
    exec .otherMasterStart s = .next { s with link := { s.link with tracking := .busyOther } } ∧
    exec .stopObserved s = .next heard ∧
    (s.link.releaseWatch = true → exec .releaseWatchQuiet s = .next heard) ∧
    (s.link.releaseWatch = false → exec .releaseWatchQuiet s = .next s)

/-- SET LINK writes every carried setting, keeps the others and is answered OK with all five as they then stand;
nothing else changes where no Sector In is withheld or stall on full ends set. Where it clears stall on full
over a withheld Sector In, that Sector In is dropped: OVERRUN is set, nothing is withheld and its ACTIVE job
becomes ENDING with OVERRUN at its next to receive, and closes in this rule if nothing is left of it. That its Closer
then leaves before the answer is the model's choice (log 13). -/
def Obligations.SetLinkWritesCarried : Prop :=
  ∀ (r : Request) (a : LinkArgs) (s : State), Accepts s → linkArgs? r = some a →
    let l : LinkSettings :=
      { rate := a.rate.getD s.link.settings.rate
        deviceAddress := a.deviceAddress.getD s.link.settings.deviceAddress
        stretchLimit := a.stretchLimit.getD s.link.settings.stretchLimit
        freeWaitLimit := a.freeWaitLimit.getD s.link.settings.freeWaitLimit }
    let stall := a.stallOnFull.getD s.stallOnFull
    let m := answerTo .setLink r .ok
      [item1 0x30 l.rate.code, item1 0x31 l.deviceAddress, itemN 0x32 1 l.stretchLimit,
        itemN 0x33 1 l.freeWaitLimit, item1 0x34 (boolCode stall)]
    let t : State := { s with link := { s.link with settings := l }, stallOnFull := stall }
    (s.withheld = none ∨ stall = true → exec (.setLink r) s = .next (sent m t)) ∧
    (∀ w j, s.withheld = some w → stall = false → s.jobs[w.tag] = some j → j.state = .active →
      exec (.setLink r) s =
        .next (sent m
          (closeIfDone w.tag
            (endedAt w.tag j j.nextToReceive (.stop .overrun)
              (setFlag .overrun { t with withheld := none })))))

/-! ## Timers and the Random Source -/

/-- A tick starts the divider again and lowers every COUNTING timer by one, those at 0 staying there; nothing else
changes, in any power state. It is the divider's reaching the tick period: it does what counting REFCLK periods, as
many as are left of the tick period, does. That they pass within the command is the model's choice (log 1). SET TICK
writes its carried settings and is answered OK with both. Where it carries a tick period the divider starts from zero
and every COUNTING timer restarts at its full count; otherwise neither changes. -/
def Obligations.TicksCountAndRestart : Prop :=
  (∀ s : State, s.powered = true →
    ∃ timers : Vector IdleTimer 24,
      exec .tick s = .next { s with divider := 0, timers := timers } ∧
      ∀ e : ExtentId,
        (∀ n, s.timers[e] = .counting (n + 1) → timers[e] = .counting n) ∧
        (s.timers[e] = .counting 0 → timers[e] = .counting 0) ∧
        ((∀ n, s.timers[e] ≠ .counting n) → timers[e] = s.timers[e])) ∧
  (∀ s : State, s.powered = true →
    (s.divider + 1 < s.tickPeriod.refclkPeriods →
      countPeriod s = { s with divider := s.divider + 1 }) ∧
    (s.tickPeriod.refclkPeriods ≤ s.divider + 1 → exec .tick s = .next (countPeriod s)) ∧
    exec .tick s =
      .next (countPeriod^[s.tickPeriod.refclkPeriods - 1 - s.divider + 1] s)) ∧
  (∀ p : TickPeriod, p.refclkPeriods = 512 * 2 ^ p.code.toNat) ∧
  (∀ (r : Request) (a : TickArgs) (s : State), Accepts s → tickArgs? r = some a →
    let period := a.period.getD s.tickPeriod
    let limit := a.drainLimit.getD s.drainLimit
    ∃ timers : Vector IdleTimer 24,
      exec (.setTick r) s =
        .next (sent (answerTo .setTick r .ok [item1 0x38 period.code, itemN 0x39 1 limit])
          { s with
            tickPeriod := period, drainLimit := limit, timers := timers
            divider := if a.period.isSome then 0 else s.divider }) ∧
      (a.period = none → timers = s.timers) ∧
      (a.period.isSome = true → ∀ e : ExtentId,
        (∀ n x, s.timers[e] = .counting n → s.extents[e] = some x →
          timers[e] = .counting (fullCount x.policy)) ∧
        ((∀ n, s.timers[e] ≠ .counting n) → timers[e] = s.timers[e])))

/-- The expiry of a timer that stands at 0. LOCK_ONCE sets both locks, releases the key with forget on idle, sets
IDLE_LOCK and disarms the timer. NOTICE_REPEAT sets IDLE_NOTICE and starts the timer again at its full count,
and neither the extent nor a slot changes. A timer that is not COUNTING at 0 does not expire: an IDLE_EXPIRY of it
is ignored (the model's choice, log 2). -/
def Obligations.ExpiryActsByIdleMode : Prop :=
  ∀ (e : ExtentId) (s : State), s.powered = true →
    (s.timers[e] ≠ .counting 0 → exec (.idleExpiry e) s = .next s) ∧
    (∀ x, s.timers[e] = .counting 0 → s.extents[e] = some x → boundSlot e x s →
      (x.policy.idleMode = .lockOnce →
        exec (.idleExpiry e) s =
          .next (setFlag .idleLock
            { s with
              extents := s.extents.set e
                (some
                  { x with
                    readLock := true, writeLock := true
                    key := if x.policy.forgetOnIdle = true ∧ x.key.isLive = true then .none
                      else x.key })
              slots := if x.policy.forgetOnIdle then releasedSlots x s else s.slots
              timers := s.timers.set e .disarmed })) ∧
      (x.policy.idleMode = .noticeRepeat →
        exec (.idleExpiry e) s =
          .next (setFlag .idleNotice
            { s with timers := s.timers.set e (.counting (fullCount x.policy)) })))

/-- In WARMING a sample raises the warm-up count, and the one that makes it 1024 makes the source READY, whichever of
the two commands reports it (the model's choice, log 24); in READY and FAILED samples change nothing (of a WARM_UP_END
that is the model's choice, logs 2 and 24). A repetition-test failure in WARMING or READY makes the source FAILED and
sets RANDOM_FAIL; in FAILED it changes nothing; that it may come at any sample there, whatever the samples before it,
is the model's choice (log 36). The power state is not read. -/
def Obligations.RandomSourceWarmsAndFails : Prop :=
  ∀ s : State, s.powered = true →
    (s.random.state = .warming → s.random.warmUp + 1 ≠ 1024 →
      exec .randomSample s =
        .next { s with random := { state := .warming, warmUp := s.random.warmUp + 1 } }) ∧
    (s.random.state = .warming → s.random.warmUp + 1 = 1024 →
      exec .randomSample s = .next { s with random := { state := .ready, warmUp := 1024 } } ∧
      exec .warmUpEnd s = .next { s with random := { state := .ready, warmUp := 1024 } }) ∧
    (s.random.state ≠ .warming →
      exec .randomSample s = .next s ∧ exec .warmUpEnd s = .next s) ∧
    (s.random.state ≠ .failed →
      exec .repetitionTestFailure s =
        .next (setFlag .randomFail { s with random := { s.random with state := .failed } })) ∧
    (s.random.state = .failed → exec .repetitionTestFailure s = .next s)

/-! ## Flags and power -/

/-- A cold start, by either line, puts every block at its value of R157's table, in one rule, and asserts ATTN; a
line that rises while the other is low starts nothing. State.reset is the part after it: the queue, the
messages and the HOLD level are the model's own there (log 7, log 15). Every pipe is IN_SERVICE with its self-check
pending. -/
def Obligations.ColdStartSetsEveryBlock : Prop :=
  (∀ (l : SupplyLine) (s : State),
    (match l with
      | .powerGood => s.powerGood = false ∧ s.resetN = true
      | .resetN => s.powerGood = true ∧ s.resetN = false) →
    exec (.coldStart l) s =
      .next
        { s with
          toBlocks := State.reset.toBlocks, powerGood := true, resetN := true, attn := true }) ∧
  (∀ s : State, s.powerGood = false → s.resetN = false →
    exec (.coldStart .powerGood) s = .next { s with powerGood := true } ∧
    exec (.coldStart .resetN) s = .next { s with resetN := true }) ∧
  (∀ t : TagId, State.reset.jobs[t] = none) ∧
  (∀ b : BufferId, State.reset.buffers[b].use = .free) ∧
  State.reset.ready = [] ∧ State.reset.withheld = none ∧ State.reset.stallOnFull = true ∧
  (∀ n : NamespaceId, State.reset.namespaces[n] = { size := 0, sectorSize := .b512 }) ∧
  (∀ e : ExtentId, State.reset.extents[e] = none ∧ State.reset.timers[e] = .disarmed) ∧
  (∀ k : SlotId, State.reset.slots[k] =
    { state := .empty, pins := 0, usage := 0, limit := 0, stopAtLimit := false, worn := false }) ∧
  (∀ p : PipeId, State.reset.pipes[p].pass = none ∧ State.reset.pipes[p].inService = true ∧
    State.reset.pipes[p].checkPending = true) ∧
  State.reset.context =
    { credential := none, newCredential := none, wrappingKeys := [], recordRead := none
      recordBuilt := none, key := none } ∧
  State.reset.random = { state := .warming, warmUp := 0 } ∧
  State.reset.link =
    { state := .idle, transaction := none, operation := none, freeWait := none
      tracking := .busyOther, releaseWatch := true
      settings := { rate := .k400, deviceAddress := 0x3A, stretchLimit := 16, freeWaitLimit := 50 } } ∧
  State.reset.tickPeriod = .s1 ∧ State.reset.divider = 0 ∧ State.reset.drainLimit = 20 ∧
  State.reset.executing = none ∧ State.reset.power = .starting ∧ State.reset.drainTimer = none ∧
  (∀ f : Flag, State.reset.flags[f.idx] =
    { state := if f = .coldStart then .set false else .clear
      enable := decide (f ≠ .idleNotice) && decide (f ≠ .jobFault) })

/-- A supply line that falls in a running part, in any power state, leaves no key in a slot, no pass in a pipe, no
working context, no transaction and no record bytes, and ATTN not asserted; nothing is emitted. R159 leaves the
records not defined: that the queue, the messages emitted and the HOLD level stay is the model's choice (log 8,
log 15). -/
def Obligations.PowerLossZeroizes : Prop :=
  ∀ (l : SupplyLine) (s : State), s.powered = true →
    ∃ t, exec (.powerGoodFalling l) s = .next t ∧ t.powered = false ∧ t.attn = false ∧
      (∀ (k : SlotId) (key : LoadedKey),
        (t.slots[k].state = .draining key ∨ ∃ e, t.slots[k].state = .ready e key) →
          key.block = 0) ∧
      (∀ p : PipeId, t.pipes[p].pass = none) ∧
      t.context =
        { credential := none, newCredential := none, wrappingKeys := [], recordRead := none
          recordBuilt := none, key := none } ∧
      t.link.transaction = none ∧ t.link.operation = none ∧ linesReleased t = true ∧
      t.outControl = s.outControl ∧ t.outData = s.outData ∧ t.pending = s.pending ∧
      t.holdLevel = s.holdLevel

/-- The self-check of a pipe ends in STARTING: a failed one is OUT_OF_SERVICE and sets SELF_CHECK_FAIL. While
another check has still to end nothing else changes; with the last one the power state becomes RUN if a pipe
passed (and HOLD in the same rule where HOLD is high, the Job Table and the request slot being empty), and
FAILED if none did. -/
def Obligations.SelfCheckDecidesPowerState : Prop :=
  ∀ (p : PipeId) (passed : Bool) (s : State), s.powered = true → s.power = .starting →
    s.pipes[p].checkPending = true →
    let one : State :=
      { s with
        pipes := s.pipes.set p { s.pipes[p] with checkPending := false, inService := passed } }
    let checked : State := if passed then one else setFlag .selfCheckFail one
    let others : Prop := ∃ q : PipeId, q ≠ p ∧ s.pipes[q].checkPending = true
    let some_ : Prop := ∃ q : PipeId, one.pipes[q].inService = true
    (others → exec (.selfCheckEnd p passed) s = .next checked) ∧
    (¬others → ¬some_ →
      exec (.selfCheckEnd p passed) s = .next { checked with power := .failed }) ∧
    (¬others → some_ → s.holdLevel = false →
      exec (.selfCheckEnd p passed) s = .next { checked with power := .run }) ∧
    (¬others → some_ → s.holdLevel = true → (∀ t : TagId, s.jobs[t] = none) →
      s.executing = none →
      ∃ t, exec (.selfCheckEnd p passed) s = .next t ∧ t.power = .hold ∧ t.drainTimer = none ∧
        t.flags = checked.flags ∧ t.pipes = checked.pipes)

/-- HOLD rising in RUN: the state becomes QUIESCING, the drain timer starts at the drain limit, and the executing
request is abandoned: its transaction that holds the link is marked; one that waits off the link (in WAIT_FREE or
POLL_WAIT, of a read, a write or a read-back) and a request without a transaction (an ERASE that waits for its drain
alone) end at once, with the write facts reached and LINK_FAIL not set. That a REWRAP abandoned before its proof is
answered with the phase NOT_BEGUN is DEDUCED (log 20). With nothing to wait for, the locking step
follows in the same rule. In any other power state the level alone is recorded. HOLD falling in HOLD makes the state
RUN; in every other state its level alone is recorded. -/
def Obligations.HoldLevelStartsAndEndsHold : Prop :=
  (∀ s : State, s.powered = true → s.holdLevel = false →
    let entry : State :=
      { s with
        holdLevel := true, power := .quiescing
        drainTimer := some { remaining := s.drainLimit, captured := s.drainLimit } }
    (s.power ≠ .run → exec .holdRises s = .next { s with holdLevel := true }) ∧
    (s.power = .run → s.executing = none → (∃ t : TagId, s.jobs[t].isSome = true) →
      exec .holdRises s = .next entry) ∧
    (s.power = .run → s.executing = none → (∀ t : TagId, s.jobs[t] = none) →
      exec .holdRises s = .next (lockingStep entry)) ∧
    (∀ w, s.power = .run → s.executing.isSome = true → s.link.transaction = some w →
      s.link.state.holdsLink = true →
      exec .holdRises s =
        .next { entry with
          link := { s.link with transaction := some { w with abandoning := true } } }) ∧
    (∀ w, s.power = .run → s.executing.isSome = true → s.link.transaction = some w →
      s.link.state.holdsLink = false →
      exec .holdRises s =
        .next
          (lockingStepIfDue
            (abandonedAs (factsReached w s.link.operation)
              { entry with
                link := rested .idle s.link.tracking s.link.releaseWatch s.link }))) ∧
    (s.power = .run → s.executing.isSome = true → s.link.transaction = none →
      exec .holdRises s =
        .next (lockingStepIfDue (abandonedAs (factsOf s.link.operation) entry))) ∧
    (∀ seq e drain w x, s.power = .run → s.link.transaction = none → s.extents[e] = some x →
      s.executing = some { seq := seq, request := .erase e drain (some w) } →
      w.facts.verified = true → (∃ t : TagId, s.jobs[t].isSome = true) →
      exec .holdRises s =
        .next (ended .erase seq .abandoned [item1 0x57 0x00, item1 0x60 0x03]
          { entry with extents := s.extents.set e (some { x with storeStale := false }) })) ∧
    (∀ w seq e d slot, s.power = .run → s.link.transaction = some w →
      s.link.state.holdsLink = false → (∃ t : TagId, s.jobs[t].isSome = true) →
      s.executing = some { seq := seq, request := .unlock e d slot } →
      exec .holdRises s =
        .next (ended .unlock seq .abandoned []
          { entry with
            link := rested .idle s.link.tracking s.link.releaseWatch s.link
            slots :=
              match slot with
              | some k =>
                s.slots.set k
                  { state := .empty, pins := 0, usage := 0, limit := 0, stopAtLimit := false
                    worn := false }
              | none => s.slots }))) ∧
  ∀ s : State, s.powered = true → s.holdLevel = true →
    exec .holdFalls s =
      .next { s with holdLevel := false, power := if s.power = .hold then .run else s.power }

/-- The stop made after abandonment completes: the link is FREE, the transaction ends ABANDONED and LINK_FAIL is not
set. An UNLOCK is answered ABANDONED without data, its slot is EMPTY and no try is counted; an ERASE has store stale
yes and STORE_STALE set and is answered with the phase UNCERTAIN; a REWRAP and a GENERATE are answered with the phase
reached, and the slot of a GENERATE is EMPTY. So does a stretch beyond the limit or a collision that is met while
abandoning, at once: the Link Master then rests in WAIT_FREE with the release watch set, or is IDLE, and the link is
BUSY_OTHER. That a REWRAP abandoned before its proof is answered with the phase NOT_BEGUN is DEDUCED (log 20), and so
is that a collision in the not-acknowledge or the stop of an abandoned READ RECORD whose bytes are all in ends it
ABANDONED and not OK (log 21). As time passes (log 1) an abandoned transaction completes its start, its byte or its
repeated start and then makes its stop; that of a WRITE RECORD in ADDRESS or SEND makes a repeated start before it. A
byte whose reception it completes is placed at the end of the record: it is the model's free value,
Config.receivedByte (log 5) at the counter draws, which rises by one (log 10). The fields stopCause, which says which
stop is made, and phase, which counts the steps of an element, are the model's own (logs 22 and 33). An opening start
broken in it has not begun the write (the model's choice, log 32). Only a final stop that was in progress when the
abandonment was taken sets final stop sent. A locking step that is then due follows; with jobs left the power state
stays QUIESCING. -/
def Obligations.AbandonedStopEndsTheRequest : Prop :=
  (∀ (w : Transaction) (s : State),
    s.link.transaction = some w → w.abandoning = true → s.link.state.holdsLink = true →
    s.link.state ≠ .stop →
    (elementLines s.link w (currentElement s.link w)).length ≤ w.phase + 1 →
    let next : Transaction :=
      { w with
        writeBegun := w.writeBegun || decide (w.kind = .writeRecord)
        phase := 0 }
    let stopping (x : Transaction) : LinkMaster :=
      { s.link with state := .stop, transaction := some { x with stopCause := .abandonment } }
    let restarting : State := { s with link := { s.link with state := .restart, transaction := some next } }
    advanceLink s =
      match s.link.state, w.kind with
      | .address, .writeRecord => restarting
      | .send, .writeRecord => restarting
      | .receive, _ =>
        { s with
          draws := s.draws + 1
          link := stopping { next with record := w.record ++ [Config.receivedByte s.draws] } }
      | _, _ => { s with link := stopping next }) ∧
  (∀ (l : LinkMaster) (w : Transaction),
    (afterAbandonedStop l w).finalStopSent = true ↔
      w.finalStopSent = true ∨ (w.kind = .writeRecord ∧ l.state = .stop ∧ w.stopCause = .final)) ∧
  (∀ (w : Transaction) (s : State),
    s.powered = true → s.link.transaction = some w → w.abandoning = true →
    s.link.state.holdsLink = true →
    let ends (x : Transaction) (st : LinkState) (tr : Tracking) (watch : Bool) : State :=
      lockingStepIfDue
        (abandonedAs (factsReached x s.link.operation) { s with link := rested st tr watch s.link })
    exec .abandonedStopCompletes s = .next (ends (metAt .finalStop w) .idle .free false) ∧
    ∀ p, canMeetAbandoning s.link w p = true →
      exec (.stretchTimeout p) s = .next (ends (metAt p w) .waitFree .busyOther true) ∧
      (checksLine s.link w p = true → ∀ rec,
        exec (.collision p rec) s =
          .next (ends (metAt p w) .idle .busyOther s.link.releaseWatch))) ∧
  ∀ (w : Transaction) (seq : Byte) (s : State),
    s.powered = true → s.link.transaction = some w → w.abandoning = true →
    s.link.state.holdsLink = true → (∃ t : TagId, s.jobs[t].isSome = true) →
    let t : State := { s with link := rested .idle .free false s.link }
    (∀ e d slot, s.executing = some { seq := seq, request := .unlock e d slot } →
      exec .abandonedStopCompletes s =
        .next (ended .unlock seq .abandoned []
          { t with
            slots :=
              match slot with
              | some k =>
                s.slots.set k
                  { state := .empty, pins := 0, usage := 0, limit := 0, stopAtLimit := false
                    worn := false }
              | none => s.slots })) ∧
    (∀ e drain x o, s.executing = some { seq := seq, request := .erase e drain none } →
      s.extents[e] = some x → s.link.operation = some o → o.verified = false →
      w.kind = .writeRecord →
      exec .abandonedStopCompletes s =
        .next (ended .erase seq .abandoned [item1 0x57 0x01, item1 0x60 0x02]
          (setFlag .storeStale
            { t with extents := s.extents.set e (some { x with storeStale := true }) })))

/-- The locking step stops the drain timer, sets both locks of every DEFINED extent with lock on hold and makes its
key status NONE where it was LIVE, with its unpinned READY slot EMPTY and its timer DISARMED, touches no other extent
or timer and no slot that no such extent names, and gives HOLD or RUN by the HOLD level. It is due exactly in
QUIESCING with the Job Table and the executing-request slot empty. -/
def Obligations.LockingStepLocksAndForgets : Prop :=
  ∀ s : State,
    let t := lockingStep s
    let due : Prop := s.power = .quiescing ∧ (∀ t : TagId, s.jobs[t] = none) ∧ s.executing = none
    (due → lockingStepIfDue s = t) ∧ (¬due → lockingStepIfDue s = s) ∧
    t.drainTimer = none ∧ t.power = (if s.holdLevel then .hold else .run) ∧
    (∀ e : ExtentId,
      t.extents[e] = s.extents[e].map fun x =>
        if x.policy.lockOnHold then
          { x with readLock := true, writeLock := true
                   key := if x.key.isLive then .none else x.key }
        else x) ∧
    (∀ (e : ExtentId) (x : Extent), s.extents[e] = some x → x.policy.lockOnHold = true →
      t.timers[e] = .disarmed) ∧
    (∀ e : ExtentId, (∀ x, s.extents[e] = some x → x.policy.lockOnHold = false) →
      t.timers[e] = s.timers[e]) ∧
    (∀ (e : ExtentId) (x : Extent) (k : SlotId) (key : LoadedKey),
      s.extents[e] = some x → x.policy.lockOnHold = true → x.key = .live k →
      s.slots[k].state = .ready e key → s.slots[k].pins = 0 →
      t.slots[k] =
        { state := .empty, pins := 0, usage := 0, limit := 0, stopAtLimit := false
          worn := false }) ∧
    (∀ k : SlotId,
      (∀ (e : ExtentId) (x : Extent), s.extents[e] = some x → x.policy.lockOnHold = true →
        x.key ≠ .live k) →
      t.slots[k] = s.slots[k]) ∧
    t = { s with drainTimer := t.drainTimer, power := t.power, extents := t.extents
                 slots := t.slots, timers := t.timers }

/-- The drain timer expires in QUIESCING: with jobs left every one is cut CUT_HOLD and HOLD_CUT is set (a job that an
earlier cut had ended keeps that cut's reason, R3, and not CUT_HOLD, as the last words of R161 have it: DEDUCED, log
38), and the locking step follows where that empties the Job Table and no request executes; with none left (a request
still ending) it only stops. A DRAIN_TIMER_EXPIRY outside QUIESCING or with no drain timer running is ignored (the
model's choice, log 2). -/
def Obligations.DrainExpiryCutsEveryJob : Prop :=
  ∀ s : State, s.powered = true →
    (s.power = .quiescing → s.drainTimer.isSome = true → (∃ t : TagId, s.jobs[t].isSome = true) →
      let u := setFlag .holdCut (cutJobs (fun _ => true) .cutHold { s with drainTimer := none })
      exec .drainTimerExpiry s =
        .next
          (if (∀ t : TagId, u.jobs[t] = none) ∧ u.executing = none then lockingStep u else u)) ∧
    (s.power = .quiescing → s.drainTimer.isSome = true → (∀ t : TagId, s.jobs[t] = none) →
      s.executing.isSome = true →
      exec .drainTimerExpiry s = .next { s with drainTimer := none }) ∧
    (s.power ≠ .quiescing ∨ (s.drainTimer = none ∧ ∃ t : TagId, s.jobs[t].isSome = true) →
      exec .drainTimerExpiry s = .next s)

/-! ## Invariants -/

/-- Every step keeps ATTN exactly asserted while the part has power and some flag is SET and enabled. A cold start
asserts it, COLD_START being SET and enabled; and no step changes the line while a flag that is SET and enabled
stays so and the part keeps its power. -/
def Obligations.StepKeepsAttn : Prop :=
  (∀ s t : State, AttnFollowsFlags s → step s = .next t → AttnFollowsFlags t) ∧
  (∀ (l : SupplyLine) (s : State),
    (match l with
      | .powerGood => s.powerGood = false ∧ s.resetN = true
      | .resetN => s.powerGood = true ∧ s.resetN = false) →
    ∃ t, exec (.coldStart l) s = .next t ∧ t.attn = true ∧
      t.flags[Flag.coldStart.idx] = { state := .set false, enable := true }) ∧
  ∀ (f : Flag) (s t : State), AttnFollowsFlags s → step s = .next t → s.powered = true →
    t.powered = true → s.flags[f.idx].isSet = true → s.flags[f.idx].enable = true →
    t.flags[f.idx].isSet = true → t.flags[f.idx].enable = true → t.attn = s.attn

/-- Every step keeps the try counts within their limits and an extent barred exactly at its limit. -/
def Obligations.StepKeepsTries : Prop :=
  ∀ s t : State, TriesWithinLimit s → step s = .next t → TriesWithinLimit t

/-- Every step keeps a part in HOLD without jobs and requests, and every extent with lock on hold locked and
without a key. -/
def Obligations.StepKeepsHeldPartLocked : Prop :=
  ∀ s t : State, HeldPartIsLocked s → step s = .next t → HeldPartIsLocked t

/-- The three invariants hold at reset. -/
def Obligations.ResetHasTheInvariants : Prop :=
  AttnFollowsFlags State.reset ∧ TriesWithinLimit State.reset ∧ HeldPartIsLocked State.reset

end
end

