-- ==== Sys2Proof/Laws/Bytes.lean ====
section
/-! SUPPORT. Numbers, key records and their bytes: each is read back from the other. -/

namespace Sys2Proof.Machine

/-- The bytes of a number are as many as asked for. -/
theorem beBytes_length (n v : Nat) : (beBytes n v).length = n := by
  induction n generalizing v with
  | zero => rfl
  | succ n ih => simp [beBytes, ih]

/-- A byte more is the lowest. -/
theorem beNat_append (a : Bytes) (b : Byte) : beNat (a ++ [b]) = beNat a * 256 + b.toNat := by
  simp [beNat]

/-- The bytes of a number spell it, but for what lies above them. -/
theorem beNat_beBytes (n v : Nat) : beNat (beBytes n v) = v % 256 ^ n := by
  induction n generalizing v with
  | zero => simp [beBytes, beNat, Nat.mod_one]
  | succ n ih =>
    rw [beBytes, beNat_append, ih, BitVec.toNat_ofNat, Nat.pow_succ' (m := 256),
      Nat.mod_mul (x := v) (a := 256)]
    exact (Nat.add_comm _ _).trans (congrArg _ (Nat.mul_comm _ _))

/-- A run of bytes spells a number that its length bounds. -/
theorem beNat_lt (bs : Bytes) : beNat bs < 256 ^ bs.length := by
  induction bs using List.reverseRecOn with
  | nil => simp [beNat]
  | append_singleton a b ih =>
    rw [beNat_append]
    have := b.isLt
    simp only [List.length_append, List.length_singleton, Nat.pow_succ]
    omega

/-- The number that a run of bytes spells has that run as its bytes. -/
theorem beBytes_beNat (bs : Bytes) : beBytes bs.length (beNat bs) = bs := by
  induction bs using List.reverseRecOn with
  | nil => rfl
  | append_singleton a b ih =>
    simp only [List.length_append, List.length_singleton, beBytes, beNat_append]
    have hb := b.isLt
    rw [show (beNat a * 256 + b.toNat) / 256 = beNat a by omega, ih]
    congr 1
    congr 1
    apply BitVec.eq_of_toNat_eq
    simp
    omega

/-- A key record is 100 bytes (12.3). -/
theorem recordBytes_length (r : KeyRecord) : (recordBytes r).length = 100 := by
  simp [recordBytes, coveredBytes, beBytes_length]

/-- A field of whole bytes is read back from its bytes. -/
theorem ofNat_beNat_beBytes (n : Nat) (v : BitVec (8 * n)) :
    BitVec.ofNat (8 * n) (beNat (beBytes n v.toNat)) = v := by
  apply BitVec.eq_of_toNat_eq
  have h : (256 : Nat) ^ n = 2 ^ (8 * n) := by rw [Nat.pow_mul]
  rw [beNat_beBytes, BitVec.toNat_ofNat, h, Nat.mod_mod, Nat.mod_eq_of_lt v.isLt]

/-- The salt, the wrapped key and the record tag stand at their offsets (12.3). -/
theorem fieldAt_recordBytes (r : KeyRecord) :
    fieldAt 4 16 (recordBytes r) = beNat (beBytes 16 r.salt.toNat) ∧
      fieldAt 20 64 (recordBytes r) = beNat (beBytes 64 r.wrapped.toNat) ∧
      fieldAt 84 16 (recordBytes r) = beNat (beBytes 16 r.tag.toNat) := by
  unfold recordBytes coveredBytes
  have h1 := beBytes_length 16 r.salt.toNat
  have h2 := beBytes_length 64 r.wrapped.toNat
  have h3 := beBytes_length 16 r.tag.toNat
  generalize beBytes 16 r.salt.toNat = a at *
  generalize beBytes 64 r.wrapped.toNat = b at *
  generalize beBytes 16 r.tag.toNat = c at *
  have key (p q t : Bytes) : fieldAt p.length q.length (p ++ (q ++ t)) = beNat q := by simp [fieldAt]
  refine ⟨?_, ?_, ?_⟩
  · have := key [r.marker, r.keySize, r.mode, r.handleEcho] a (b ++ c)
    rw [h1] at this
    simpa only [List.append_assoc, List.length_cons, List.length_nil] using this
  · have := key ([r.marker, r.keySize, r.mode, r.handleEcho] ++ a) b c
    rw [List.length_append, h1, h2] at this
    simpa only [List.append_assoc, List.length_cons, List.length_nil] using this
  · have := key ([r.marker, r.keySize, r.mode, r.handleEcho] ++ a ++ b) c []
    rw [List.length_append, List.length_append, h1, h2, h3, List.append_nil] at this
    simpa only [List.append_assoc, List.length_cons, List.length_nil] using this

/-- A record is read back from its bytes. -/
theorem recordOfBytes_recordBytes (r : KeyRecord) : recordOfBytes (recordBytes r) = r := by
  obtain ⟨h1, h2, h3⟩ := fieldAt_recordBytes r
  unfold recordOfBytes
  rw [h1, h2, h3]
  have a := ofNat_beNat_beBytes 16 r.salt
  have b := ofNat_beNat_beBytes 64 r.wrapped
  have c := ofNat_beNat_beBytes 16 r.tag
  simp only [Nat.reduceMul] at a b c
  rw [a, b, c]
  rfl

/-- 100 bytes are the bytes of the record they spell. -/
theorem recordBytes_recordOfBytes {bs : Bytes} (h : bs.length = 100) :
    recordBytes (recordOfBytes bs) = bs := by
  obtain ⟨x0, x1, x2, x3, r, rfl⟩ : ∃ x0 x1 x2 x3 r, bs = x0 :: x1 :: x2 :: x3 :: r := by
    match bs, h with
    | x0 :: x1 :: x2 :: x3 :: r, _ => exact ⟨x0, x1, x2, x3, r, rfl⟩
  have hr : r.length = 96 := by simpa using h
  have hf (first len : Nat) (hl : first + len ≤ 100) (h4 : 4 ≤ first) :
      beBytes len (BitVec.ofNat (8 * len) (fieldAt first len (x0 :: x1 :: x2 :: x3 :: r))).toNat =
        (r.drop (first - 4)).take len := by
    have he : fieldAt first len (x0 :: x1 :: x2 :: x3 :: r) = beNat ((r.drop (first - 4)).take len) := by
      obtain ⟨k, rfl⟩ := Nat.exists_eq_add_of_le' h4
      rfl
    have hlen : ((r.drop (first - 4)).take len).length = len := by simp [hr]; omega
    rw [he, BitVec.toNat_ofNat, Nat.mod_eq_of_lt]
    · conv_lhs => rw [← hlen]
      rw [hlen]
      conv_lhs => rw [show beBytes len = beBytes ((r.drop (first - 4)).take len).length by rw [hlen]]
      exact beBytes_beNat _
    · have := beNat_lt ((r.drop (first - 4)).take len)
      rw [hlen, show (256 : Nat) ^ len = 2 ^ (8 * len) by rw [Nat.pow_mul]] at this
      exact this
  have a := hf 4 16 (by omega) (by omega)
  have b := hf 20 64 (by omega) (by omega)
  have c := hf 84 16 (by omega) (by omega)
  show [x0, x1, x2, x3] ++ beBytes 16 (BitVec.ofNat (8 * 16) _).toNat
    ++ beBytes 64 (BitVec.ofNat (8 * 64) _).toNat ++ beBytes 16 (BitVec.ofNat (8 * 16) _).toNat = _
  rw [a, b, c]
  have e1 : r = r.take 16 ++ ((r.drop 16).take 64 ++ (r.drop 80).take 16) := by
    conv_lhs => rw [← List.take_append_drop 16 r, ← List.take_append_drop 64 (r.drop 16)]
    rw [List.drop_drop, List.take_of_length_le (l := r.drop 80) (by simp [hr])]
  simp only [List.cons_append, List.nil_append, List.append_assoc]
  conv_rhs => rw [e1]
  rfl

end Sys2Proof.Machine
end

