-- ==== Sys2Proof/Laws/State.lean ====
section
/-! SUPPORT. What each writer of the state leaves in each field: the value written in its own, and the value
that was there in every other. All by rfl. -/

namespace Sys2Proof.Machine

variable (s : State)

/-! ## Power -/

theorem powered_eq : s.powered = (s.powerGood && s.resetN) := rfl

/-! ## emitControl -/

@[simp] theorem emitControl_jobs (m : ControlMsg) : (emitControl m s).jobs = s.jobs := rfl
@[simp] theorem emitControl_buffers (m : ControlMsg) : (emitControl m s).buffers = s.buffers := rfl
@[simp] theorem emitControl_ready (m : ControlMsg) : (emitControl m s).ready = s.ready := rfl
@[simp] theorem emitControl_withheld (m : ControlMsg) :
    (emitControl m s).withheld =
      s.withheld := rfl
@[simp] theorem emitControl_inbound (m : ControlMsg) : (emitControl m s).inbound = s.inbound := rfl
@[simp] theorem emitControl_stallOnFull (m : ControlMsg) :
    (emitControl m s).stallOnFull =
      s.stallOnFull := rfl
@[simp] theorem emitControl_namespaces (m : ControlMsg) :
    (emitControl m s).namespaces =
      s.namespaces := rfl
@[simp] theorem emitControl_extents (m : ControlMsg) : (emitControl m s).extents = s.extents := rfl
@[simp] theorem emitControl_slots (m : ControlMsg) : (emitControl m s).slots = s.slots := rfl
@[simp] theorem emitControl_pipes (m : ControlMsg) : (emitControl m s).pipes = s.pipes := rfl
@[simp] theorem emitControl_context (m : ControlMsg) : (emitControl m s).context = s.context := rfl
@[simp] theorem emitControl_random (m : ControlMsg) : (emitControl m s).random = s.random := rfl
@[simp] theorem emitControl_link (m : ControlMsg) : (emitControl m s).link = s.link := rfl
@[simp] theorem emitControl_tickPeriod (m : ControlMsg) :
    (emitControl m s).tickPeriod =
      s.tickPeriod := rfl
@[simp] theorem emitControl_divider (m : ControlMsg) : (emitControl m s).divider = s.divider := rfl
@[simp] theorem emitControl_drainLimit (m : ControlMsg) :
    (emitControl m s).drainLimit =
      s.drainLimit := rfl
@[simp] theorem emitControl_timers (m : ControlMsg) : (emitControl m s).timers = s.timers := rfl
@[simp] theorem emitControl_executing (m : ControlMsg) :
    (emitControl m s).executing =
      s.executing := rfl
@[simp] theorem emitControl_flags (m : ControlMsg) : (emitControl m s).flags = s.flags := rfl
@[simp] theorem emitControl_power (m : ControlMsg) : (emitControl m s).power = s.power := rfl
@[simp] theorem emitControl_drainTimer (m : ControlMsg) :
    (emitControl m s).drainTimer =
      s.drainTimer := rfl
@[simp] theorem emitControl_powerGood (m : ControlMsg) :
    (emitControl m s).powerGood =
      s.powerGood := rfl
@[simp] theorem emitControl_resetN (m : ControlMsg) : (emitControl m s).resetN = s.resetN := rfl
@[simp] theorem emitControl_holdLevel (m : ControlMsg) :
    (emitControl m s).holdLevel =
      s.holdLevel := rfl
@[simp] theorem emitControl_attn (m : ControlMsg) : (emitControl m s).attn = s.attn := rfl
@[simp] theorem emitControl_draws (m : ControlMsg) : (emitControl m s).draws = s.draws := rfl
@[simp] theorem emitControl_outControl (m : ControlMsg) :
    (emitControl m s).outControl =
      s.outControl ++ [m] := rfl
@[simp] theorem emitControl_outData (m : ControlMsg) : (emitControl m s).outData = s.outData := rfl
@[simp] theorem emitControl_pending (m : ControlMsg) : (emitControl m s).pending = s.pending := rfl
@[simp] theorem emitControl_powered (m : ControlMsg) : (emitControl m s).powered = s.powered := rfl

/-! ## emitSector -/

@[simp] theorem emitSector_jobs (m : SectorOutMsg) : (emitSector m s).jobs = s.jobs := rfl
@[simp] theorem emitSector_buffers (m : SectorOutMsg) : (emitSector m s).buffers = s.buffers := rfl
@[simp] theorem emitSector_ready (m : SectorOutMsg) : (emitSector m s).ready = s.ready := rfl
@[simp] theorem emitSector_withheld (m : SectorOutMsg) :
    (emitSector m s).withheld =
      s.withheld := rfl
@[simp] theorem emitSector_inbound (m : SectorOutMsg) : (emitSector m s).inbound = s.inbound := rfl
@[simp] theorem emitSector_stallOnFull (m : SectorOutMsg) :
    (emitSector m s).stallOnFull =
      s.stallOnFull := rfl
@[simp] theorem emitSector_namespaces (m : SectorOutMsg) :
    (emitSector m s).namespaces =
      s.namespaces := rfl
@[simp] theorem emitSector_extents (m : SectorOutMsg) : (emitSector m s).extents = s.extents := rfl
@[simp] theorem emitSector_slots (m : SectorOutMsg) : (emitSector m s).slots = s.slots := rfl
@[simp] theorem emitSector_pipes (m : SectorOutMsg) : (emitSector m s).pipes = s.pipes := rfl
@[simp] theorem emitSector_context (m : SectorOutMsg) : (emitSector m s).context = s.context := rfl
@[simp] theorem emitSector_random (m : SectorOutMsg) : (emitSector m s).random = s.random := rfl
@[simp] theorem emitSector_link (m : SectorOutMsg) : (emitSector m s).link = s.link := rfl
@[simp] theorem emitSector_tickPeriod (m : SectorOutMsg) :
    (emitSector m s).tickPeriod =
      s.tickPeriod := rfl
@[simp] theorem emitSector_divider (m : SectorOutMsg) : (emitSector m s).divider = s.divider := rfl
@[simp] theorem emitSector_drainLimit (m : SectorOutMsg) :
    (emitSector m s).drainLimit =
      s.drainLimit := rfl
@[simp] theorem emitSector_timers (m : SectorOutMsg) : (emitSector m s).timers = s.timers := rfl
@[simp] theorem emitSector_executing (m : SectorOutMsg) :
    (emitSector m s).executing =
      s.executing := rfl
@[simp] theorem emitSector_flags (m : SectorOutMsg) : (emitSector m s).flags = s.flags := rfl
@[simp] theorem emitSector_power (m : SectorOutMsg) : (emitSector m s).power = s.power := rfl
@[simp] theorem emitSector_drainTimer (m : SectorOutMsg) :
    (emitSector m s).drainTimer =
      s.drainTimer := rfl
@[simp] theorem emitSector_powerGood (m : SectorOutMsg) :
    (emitSector m s).powerGood =
      s.powerGood := rfl
@[simp] theorem emitSector_resetN (m : SectorOutMsg) : (emitSector m s).resetN = s.resetN := rfl
@[simp] theorem emitSector_holdLevel (m : SectorOutMsg) :
    (emitSector m s).holdLevel =
      s.holdLevel := rfl
@[simp] theorem emitSector_attn (m : SectorOutMsg) : (emitSector m s).attn = s.attn := rfl
@[simp] theorem emitSector_draws (m : SectorOutMsg) : (emitSector m s).draws = s.draws := rfl
@[simp] theorem emitSector_outControl (m : SectorOutMsg) :
    (emitSector m s).outControl =
      s.outControl := rfl
@[simp] theorem emitSector_outData (m : SectorOutMsg) :
    (emitSector m s).outData =
      s.outData ++ [m] := rfl
@[simp] theorem emitSector_pending (m : SectorOutMsg) : (emitSector m s).pending = s.pending := rfl
@[simp] theorem emitSector_powered (m : SectorOutMsg) : (emitSector m s).powered = s.powered := rfl

/-! ## setJob -/

@[simp] theorem setJob_jobs (t : TagId) (j : Option Job) :
    (setJob t j s).jobs =
      s.jobs.set t j := rfl
@[simp] theorem setJob_buffers (t : TagId) (j : Option Job) :
    (setJob t j s).buffers =
      s.buffers := rfl
@[simp] theorem setJob_ready (t : TagId) (j : Option Job) : (setJob t j s).ready = s.ready := rfl
@[simp] theorem setJob_withheld (t : TagId) (j : Option Job) :
    (setJob t j s).withheld =
      s.withheld := rfl
@[simp] theorem setJob_inbound (t : TagId) (j : Option Job) :
    (setJob t j s).inbound =
      s.inbound := rfl
@[simp] theorem setJob_stallOnFull (t : TagId) (j : Option Job) :
    (setJob t j s).stallOnFull =
      s.stallOnFull := rfl
@[simp] theorem setJob_namespaces (t : TagId) (j : Option Job) :
    (setJob t j s).namespaces =
      s.namespaces := rfl
@[simp] theorem setJob_extents (t : TagId) (j : Option Job) :
    (setJob t j s).extents =
      s.extents := rfl
@[simp] theorem setJob_slots (t : TagId) (j : Option Job) : (setJob t j s).slots = s.slots := rfl
@[simp] theorem setJob_pipes (t : TagId) (j : Option Job) : (setJob t j s).pipes = s.pipes := rfl
@[simp] theorem setJob_context (t : TagId) (j : Option Job) :
    (setJob t j s).context =
      s.context := rfl
@[simp] theorem setJob_random (t : TagId) (j : Option Job) : (setJob t j s).random = s.random := rfl
@[simp] theorem setJob_link (t : TagId) (j : Option Job) : (setJob t j s).link = s.link := rfl
@[simp] theorem setJob_tickPeriod (t : TagId) (j : Option Job) :
    (setJob t j s).tickPeriod =
      s.tickPeriod := rfl
@[simp] theorem setJob_divider (t : TagId) (j : Option Job) :
    (setJob t j s).divider =
      s.divider := rfl
@[simp] theorem setJob_drainLimit (t : TagId) (j : Option Job) :
    (setJob t j s).drainLimit =
      s.drainLimit := rfl
@[simp] theorem setJob_timers (t : TagId) (j : Option Job) : (setJob t j s).timers = s.timers := rfl
@[simp] theorem setJob_executing (t : TagId) (j : Option Job) :
    (setJob t j s).executing =
      s.executing := rfl
@[simp] theorem setJob_flags (t : TagId) (j : Option Job) : (setJob t j s).flags = s.flags := rfl
@[simp] theorem setJob_power (t : TagId) (j : Option Job) : (setJob t j s).power = s.power := rfl
@[simp] theorem setJob_drainTimer (t : TagId) (j : Option Job) :
    (setJob t j s).drainTimer =
      s.drainTimer := rfl
@[simp] theorem setJob_powerGood (t : TagId) (j : Option Job) :
    (setJob t j s).powerGood =
      s.powerGood := rfl
@[simp] theorem setJob_resetN (t : TagId) (j : Option Job) : (setJob t j s).resetN = s.resetN := rfl
@[simp] theorem setJob_holdLevel (t : TagId) (j : Option Job) :
    (setJob t j s).holdLevel =
      s.holdLevel := rfl
@[simp] theorem setJob_attn (t : TagId) (j : Option Job) : (setJob t j s).attn = s.attn := rfl
@[simp] theorem setJob_draws (t : TagId) (j : Option Job) : (setJob t j s).draws = s.draws := rfl
@[simp] theorem setJob_outControl (t : TagId) (j : Option Job) :
    (setJob t j s).outControl =
      s.outControl := rfl
@[simp] theorem setJob_outData (t : TagId) (j : Option Job) :
    (setJob t j s).outData =
      s.outData := rfl
@[simp] theorem setJob_pending (t : TagId) (j : Option Job) :
    (setJob t j s).pending =
      s.pending := rfl
@[simp] theorem setJob_powered (t : TagId) (j : Option Job) :
    (setJob t j s).powered = s.powered := rfl

/-! ## setBuffer -/

@[simp] theorem setBuffer_jobs (b : BufferId) (v : Buffer) : (setBuffer b v s).jobs = s.jobs := rfl
@[simp] theorem setBuffer_buffers (b : BufferId) (v : Buffer) :
    (setBuffer b v s).buffers =
      s.buffers.set b v := rfl
@[simp] theorem setBuffer_ready (b : BufferId) (v : Buffer) :
    (setBuffer b v s).ready =
      s.ready := rfl
@[simp] theorem setBuffer_withheld (b : BufferId) (v : Buffer) :
    (setBuffer b v s).withheld =
      s.withheld := rfl
@[simp] theorem setBuffer_inbound (b : BufferId) (v : Buffer) :
    (setBuffer b v s).inbound =
      s.inbound := rfl
@[simp] theorem setBuffer_stallOnFull (b : BufferId) (v : Buffer) :
    (setBuffer b v s).stallOnFull =
      s.stallOnFull := rfl
@[simp] theorem setBuffer_namespaces (b : BufferId) (v : Buffer) :
    (setBuffer b v s).namespaces =
      s.namespaces := rfl
@[simp] theorem setBuffer_extents (b : BufferId) (v : Buffer) :
    (setBuffer b v s).extents =
      s.extents := rfl
@[simp] theorem setBuffer_slots (b : BufferId) (v : Buffer) :
    (setBuffer b v s).slots =
      s.slots := rfl
@[simp] theorem setBuffer_pipes (b : BufferId) (v : Buffer) :
    (setBuffer b v s).pipes =
      s.pipes := rfl
@[simp] theorem setBuffer_context (b : BufferId) (v : Buffer) :
    (setBuffer b v s).context =
      s.context := rfl
@[simp] theorem setBuffer_random (b : BufferId) (v : Buffer) :
    (setBuffer b v s).random =
      s.random := rfl
@[simp] theorem setBuffer_link (b : BufferId) (v : Buffer) : (setBuffer b v s).link = s.link := rfl
@[simp] theorem setBuffer_tickPeriod (b : BufferId) (v : Buffer) :
    (setBuffer b v s).tickPeriod =
      s.tickPeriod := rfl
@[simp] theorem setBuffer_divider (b : BufferId) (v : Buffer) :
    (setBuffer b v s).divider =
      s.divider := rfl
@[simp] theorem setBuffer_drainLimit (b : BufferId) (v : Buffer) :
    (setBuffer b v s).drainLimit =
      s.drainLimit := rfl
@[simp] theorem setBuffer_timers (b : BufferId) (v : Buffer) :
    (setBuffer b v s).timers =
      s.timers := rfl
@[simp] theorem setBuffer_executing (b : BufferId) (v : Buffer) :
    (setBuffer b v s).executing =
      s.executing := rfl
@[simp] theorem setBuffer_flags (b : BufferId) (v : Buffer) :
    (setBuffer b v s).flags =
      s.flags := rfl
@[simp] theorem setBuffer_power (b : BufferId) (v : Buffer) :
    (setBuffer b v s).power =
      s.power := rfl
@[simp] theorem setBuffer_drainTimer (b : BufferId) (v : Buffer) :
    (setBuffer b v s).drainTimer =
      s.drainTimer := rfl
@[simp] theorem setBuffer_powerGood (b : BufferId) (v : Buffer) :
    (setBuffer b v s).powerGood =
      s.powerGood := rfl
@[simp] theorem setBuffer_resetN (b : BufferId) (v : Buffer) :
    (setBuffer b v s).resetN =
      s.resetN := rfl
@[simp] theorem setBuffer_holdLevel (b : BufferId) (v : Buffer) :
    (setBuffer b v s).holdLevel =
      s.holdLevel := rfl
@[simp] theorem setBuffer_attn (b : BufferId) (v : Buffer) : (setBuffer b v s).attn = s.attn := rfl
@[simp] theorem setBuffer_draws (b : BufferId) (v : Buffer) :
    (setBuffer b v s).draws =
      s.draws := rfl
@[simp] theorem setBuffer_outControl (b : BufferId) (v : Buffer) :
    (setBuffer b v s).outControl =
      s.outControl := rfl
@[simp] theorem setBuffer_outData (b : BufferId) (v : Buffer) :
    (setBuffer b v s).outData =
      s.outData := rfl
@[simp] theorem setBuffer_pending (b : BufferId) (v : Buffer) :
    (setBuffer b v s).pending =
      s.pending := rfl
@[simp] theorem setBuffer_powered (b : BufferId) (v : Buffer) :
    (setBuffer b v s).powered = s.powered := rfl

/-! ## setExtent -/

@[simp] theorem setExtent_jobs (e : ExtentId) (x : Option Extent) :
    (setExtent e x s).jobs =
      s.jobs := rfl
@[simp] theorem setExtent_buffers (e : ExtentId) (x : Option Extent) :
    (setExtent e x s).buffers =
      s.buffers := rfl
@[simp] theorem setExtent_ready (e : ExtentId) (x : Option Extent) :
    (setExtent e x s).ready =
      s.ready := rfl
@[simp] theorem setExtent_withheld (e : ExtentId) (x : Option Extent) :
    (setExtent e x s).withheld =
      s.withheld := rfl
@[simp] theorem setExtent_inbound (e : ExtentId) (x : Option Extent) :
    (setExtent e x s).inbound =
      s.inbound := rfl
@[simp] theorem setExtent_stallOnFull (e : ExtentId) (x : Option Extent) :
    (setExtent e x s).stallOnFull =
      s.stallOnFull := rfl
@[simp] theorem setExtent_namespaces (e : ExtentId) (x : Option Extent) :
    (setExtent e x s).namespaces =
      s.namespaces := rfl
@[simp] theorem setExtent_extents (e : ExtentId) (x : Option Extent) :
    (setExtent e x s).extents =
      s.extents.set e x := rfl
@[simp] theorem setExtent_slots (e : ExtentId) (x : Option Extent) :
    (setExtent e x s).slots =
      s.slots := rfl
@[simp] theorem setExtent_pipes (e : ExtentId) (x : Option Extent) :
    (setExtent e x s).pipes =
      s.pipes := rfl
@[simp] theorem setExtent_context (e : ExtentId) (x : Option Extent) :
    (setExtent e x s).context =
      s.context := rfl
@[simp] theorem setExtent_random (e : ExtentId) (x : Option Extent) :
    (setExtent e x s).random =
      s.random := rfl
@[simp] theorem setExtent_link (e : ExtentId) (x : Option Extent) :
    (setExtent e x s).link =
      s.link := rfl
@[simp] theorem setExtent_tickPeriod (e : ExtentId) (x : Option Extent) :
    (setExtent e x s).tickPeriod =
      s.tickPeriod := rfl
@[simp] theorem setExtent_divider (e : ExtentId) (x : Option Extent) :
    (setExtent e x s).divider =
      s.divider := rfl
@[simp] theorem setExtent_drainLimit (e : ExtentId) (x : Option Extent) :
    (setExtent e x s).drainLimit =
      s.drainLimit := rfl
@[simp] theorem setExtent_timers (e : ExtentId) (x : Option Extent) :
    (setExtent e x s).timers =
      s.timers := rfl
@[simp] theorem setExtent_executing (e : ExtentId) (x : Option Extent) :
    (setExtent e x s).executing =
      s.executing := rfl
@[simp] theorem setExtent_flags (e : ExtentId) (x : Option Extent) :
    (setExtent e x s).flags =
      s.flags := rfl
@[simp] theorem setExtent_power (e : ExtentId) (x : Option Extent) :
    (setExtent e x s).power =
      s.power := rfl
@[simp] theorem setExtent_drainTimer (e : ExtentId) (x : Option Extent) :
    (setExtent e x s).drainTimer =
      s.drainTimer := rfl
@[simp] theorem setExtent_powerGood (e : ExtentId) (x : Option Extent) :
    (setExtent e x s).powerGood =
      s.powerGood := rfl
@[simp] theorem setExtent_resetN (e : ExtentId) (x : Option Extent) :
    (setExtent e x s).resetN =
      s.resetN := rfl
@[simp] theorem setExtent_holdLevel (e : ExtentId) (x : Option Extent) :
    (setExtent e x s).holdLevel =
      s.holdLevel := rfl
@[simp] theorem setExtent_attn (e : ExtentId) (x : Option Extent) :
    (setExtent e x s).attn =
      s.attn := rfl
@[simp] theorem setExtent_draws (e : ExtentId) (x : Option Extent) :
    (setExtent e x s).draws =
      s.draws := rfl
@[simp] theorem setExtent_outControl (e : ExtentId) (x : Option Extent) :
    (setExtent e x s).outControl =
      s.outControl := rfl
@[simp] theorem setExtent_outData (e : ExtentId) (x : Option Extent) :
    (setExtent e x s).outData =
      s.outData := rfl
@[simp] theorem setExtent_pending (e : ExtentId) (x : Option Extent) :
    (setExtent e x s).pending =
      s.pending := rfl
@[simp] theorem setExtent_powered (e : ExtentId) (x : Option Extent) :
    (setExtent e x s).powered = s.powered := rfl

/-! ## setSlot -/

@[simp] theorem setSlot_jobs (k : SlotId) (v : Slot) : (setSlot k v s).jobs = s.jobs := rfl
@[simp] theorem setSlot_buffers (k : SlotId) (v : Slot) : (setSlot k v s).buffers = s.buffers := rfl
@[simp] theorem setSlot_ready (k : SlotId) (v : Slot) : (setSlot k v s).ready = s.ready := rfl
@[simp] theorem setSlot_withheld (k : SlotId) (v : Slot) :
    (setSlot k v s).withheld =
      s.withheld := rfl
@[simp] theorem setSlot_inbound (k : SlotId) (v : Slot) : (setSlot k v s).inbound = s.inbound := rfl
@[simp] theorem setSlot_stallOnFull (k : SlotId) (v : Slot) :
    (setSlot k v s).stallOnFull =
      s.stallOnFull := rfl
@[simp] theorem setSlot_namespaces (k : SlotId) (v : Slot) :
    (setSlot k v s).namespaces =
      s.namespaces := rfl
@[simp] theorem setSlot_extents (k : SlotId) (v : Slot) : (setSlot k v s).extents = s.extents := rfl
@[simp] theorem setSlot_slots (k : SlotId) (v : Slot) :
    (setSlot k v s).slots =
      s.slots.set k v := rfl
@[simp] theorem setSlot_pipes (k : SlotId) (v : Slot) : (setSlot k v s).pipes = s.pipes := rfl
@[simp] theorem setSlot_context (k : SlotId) (v : Slot) : (setSlot k v s).context = s.context := rfl
@[simp] theorem setSlot_random (k : SlotId) (v : Slot) : (setSlot k v s).random = s.random := rfl
@[simp] theorem setSlot_link (k : SlotId) (v : Slot) : (setSlot k v s).link = s.link := rfl
@[simp] theorem setSlot_tickPeriod (k : SlotId) (v : Slot) :
    (setSlot k v s).tickPeriod =
      s.tickPeriod := rfl
@[simp] theorem setSlot_divider (k : SlotId) (v : Slot) : (setSlot k v s).divider = s.divider := rfl
@[simp] theorem setSlot_drainLimit (k : SlotId) (v : Slot) :
    (setSlot k v s).drainLimit =
      s.drainLimit := rfl
@[simp] theorem setSlot_timers (k : SlotId) (v : Slot) : (setSlot k v s).timers = s.timers := rfl
@[simp] theorem setSlot_executing (k : SlotId) (v : Slot) :
    (setSlot k v s).executing =
      s.executing := rfl
@[simp] theorem setSlot_flags (k : SlotId) (v : Slot) : (setSlot k v s).flags = s.flags := rfl
@[simp] theorem setSlot_power (k : SlotId) (v : Slot) : (setSlot k v s).power = s.power := rfl
@[simp] theorem setSlot_drainTimer (k : SlotId) (v : Slot) :
    (setSlot k v s).drainTimer =
      s.drainTimer := rfl
@[simp] theorem setSlot_powerGood (k : SlotId) (v : Slot) :
    (setSlot k v s).powerGood =
      s.powerGood := rfl
@[simp] theorem setSlot_resetN (k : SlotId) (v : Slot) : (setSlot k v s).resetN = s.resetN := rfl
@[simp] theorem setSlot_holdLevel (k : SlotId) (v : Slot) :
    (setSlot k v s).holdLevel =
      s.holdLevel := rfl
@[simp] theorem setSlot_attn (k : SlotId) (v : Slot) : (setSlot k v s).attn = s.attn := rfl
@[simp] theorem setSlot_draws (k : SlotId) (v : Slot) : (setSlot k v s).draws = s.draws := rfl
@[simp] theorem setSlot_outControl (k : SlotId) (v : Slot) :
    (setSlot k v s).outControl =
      s.outControl := rfl
@[simp] theorem setSlot_outData (k : SlotId) (v : Slot) : (setSlot k v s).outData = s.outData := rfl
@[simp] theorem setSlot_pending (k : SlotId) (v : Slot) : (setSlot k v s).pending = s.pending := rfl
@[simp] theorem setSlot_powered (k : SlotId) (v : Slot) : (setSlot k v s).powered = s.powered := rfl

/-! ## setPipe -/

@[simp] theorem setPipe_jobs (p : PipeId) (v : Pipe) : (setPipe p v s).jobs = s.jobs := rfl
@[simp] theorem setPipe_buffers (p : PipeId) (v : Pipe) : (setPipe p v s).buffers = s.buffers := rfl
@[simp] theorem setPipe_ready (p : PipeId) (v : Pipe) : (setPipe p v s).ready = s.ready := rfl
@[simp] theorem setPipe_withheld (p : PipeId) (v : Pipe) :
    (setPipe p v s).withheld =
      s.withheld := rfl
@[simp] theorem setPipe_inbound (p : PipeId) (v : Pipe) : (setPipe p v s).inbound = s.inbound := rfl
@[simp] theorem setPipe_stallOnFull (p : PipeId) (v : Pipe) :
    (setPipe p v s).stallOnFull =
      s.stallOnFull := rfl
@[simp] theorem setPipe_namespaces (p : PipeId) (v : Pipe) :
    (setPipe p v s).namespaces =
      s.namespaces := rfl
@[simp] theorem setPipe_extents (p : PipeId) (v : Pipe) : (setPipe p v s).extents = s.extents := rfl
@[simp] theorem setPipe_slots (p : PipeId) (v : Pipe) : (setPipe p v s).slots = s.slots := rfl
@[simp] theorem setPipe_pipes (p : PipeId) (v : Pipe) :
    (setPipe p v s).pipes =
      s.pipes.set p v := rfl
@[simp] theorem setPipe_context (p : PipeId) (v : Pipe) : (setPipe p v s).context = s.context := rfl
@[simp] theorem setPipe_random (p : PipeId) (v : Pipe) : (setPipe p v s).random = s.random := rfl
@[simp] theorem setPipe_link (p : PipeId) (v : Pipe) : (setPipe p v s).link = s.link := rfl
@[simp] theorem setPipe_tickPeriod (p : PipeId) (v : Pipe) :
    (setPipe p v s).tickPeriod =
      s.tickPeriod := rfl
@[simp] theorem setPipe_divider (p : PipeId) (v : Pipe) : (setPipe p v s).divider = s.divider := rfl
@[simp] theorem setPipe_drainLimit (p : PipeId) (v : Pipe) :
    (setPipe p v s).drainLimit =
      s.drainLimit := rfl
@[simp] theorem setPipe_timers (p : PipeId) (v : Pipe) : (setPipe p v s).timers = s.timers := rfl
@[simp] theorem setPipe_executing (p : PipeId) (v : Pipe) :
    (setPipe p v s).executing =
      s.executing := rfl
@[simp] theorem setPipe_flags (p : PipeId) (v : Pipe) : (setPipe p v s).flags = s.flags := rfl
@[simp] theorem setPipe_power (p : PipeId) (v : Pipe) : (setPipe p v s).power = s.power := rfl
@[simp] theorem setPipe_drainTimer (p : PipeId) (v : Pipe) :
    (setPipe p v s).drainTimer =
      s.drainTimer := rfl
@[simp] theorem setPipe_powerGood (p : PipeId) (v : Pipe) :
    (setPipe p v s).powerGood =
      s.powerGood := rfl
@[simp] theorem setPipe_resetN (p : PipeId) (v : Pipe) : (setPipe p v s).resetN = s.resetN := rfl
@[simp] theorem setPipe_holdLevel (p : PipeId) (v : Pipe) :
    (setPipe p v s).holdLevel =
      s.holdLevel := rfl
@[simp] theorem setPipe_attn (p : PipeId) (v : Pipe) : (setPipe p v s).attn = s.attn := rfl
@[simp] theorem setPipe_draws (p : PipeId) (v : Pipe) : (setPipe p v s).draws = s.draws := rfl
@[simp] theorem setPipe_outControl (p : PipeId) (v : Pipe) :
    (setPipe p v s).outControl =
      s.outControl := rfl
@[simp] theorem setPipe_outData (p : PipeId) (v : Pipe) : (setPipe p v s).outData = s.outData := rfl
@[simp] theorem setPipe_pending (p : PipeId) (v : Pipe) : (setPipe p v s).pending = s.pending := rfl
@[simp] theorem setPipe_powered (p : PipeId) (v : Pipe) : (setPipe p v s).powered = s.powered := rfl

/-! ## setTimer -/

@[simp] theorem setTimer_jobs (e : ExtentId) (t : IdleTimer) : (setTimer e t s).jobs = s.jobs := rfl
@[simp] theorem setTimer_buffers (e : ExtentId) (t : IdleTimer) :
    (setTimer e t s).buffers =
      s.buffers := rfl
@[simp] theorem setTimer_ready (e : ExtentId) (t : IdleTimer) :
    (setTimer e t s).ready =
      s.ready := rfl
@[simp] theorem setTimer_withheld (e : ExtentId) (t : IdleTimer) :
    (setTimer e t s).withheld =
      s.withheld := rfl
@[simp] theorem setTimer_inbound (e : ExtentId) (t : IdleTimer) :
    (setTimer e t s).inbound =
      s.inbound := rfl
@[simp] theorem setTimer_stallOnFull (e : ExtentId) (t : IdleTimer) :
    (setTimer e t s).stallOnFull =
      s.stallOnFull := rfl
@[simp] theorem setTimer_namespaces (e : ExtentId) (t : IdleTimer) :
    (setTimer e t s).namespaces =
      s.namespaces := rfl
@[simp] theorem setTimer_extents (e : ExtentId) (t : IdleTimer) :
    (setTimer e t s).extents =
      s.extents := rfl
@[simp] theorem setTimer_slots (e : ExtentId) (t : IdleTimer) :
    (setTimer e t s).slots =
      s.slots := rfl
@[simp] theorem setTimer_pipes (e : ExtentId) (t : IdleTimer) :
    (setTimer e t s).pipes =
      s.pipes := rfl
@[simp] theorem setTimer_context (e : ExtentId) (t : IdleTimer) :
    (setTimer e t s).context =
      s.context := rfl
@[simp] theorem setTimer_random (e : ExtentId) (t : IdleTimer) :
    (setTimer e t s).random =
      s.random := rfl
@[simp] theorem setTimer_link (e : ExtentId) (t : IdleTimer) : (setTimer e t s).link = s.link := rfl
@[simp] theorem setTimer_tickPeriod (e : ExtentId) (t : IdleTimer) :
    (setTimer e t s).tickPeriod =
      s.tickPeriod := rfl
@[simp] theorem setTimer_divider (e : ExtentId) (t : IdleTimer) :
    (setTimer e t s).divider =
      s.divider := rfl
@[simp] theorem setTimer_drainLimit (e : ExtentId) (t : IdleTimer) :
    (setTimer e t s).drainLimit =
      s.drainLimit := rfl
@[simp] theorem setTimer_timers (e : ExtentId) (t : IdleTimer) :
    (setTimer e t s).timers =
      s.timers.set e t := rfl
@[simp] theorem setTimer_executing (e : ExtentId) (t : IdleTimer) :
    (setTimer e t s).executing =
      s.executing := rfl
@[simp] theorem setTimer_flags (e : ExtentId) (t : IdleTimer) :
    (setTimer e t s).flags =
      s.flags := rfl
@[simp] theorem setTimer_power (e : ExtentId) (t : IdleTimer) :
    (setTimer e t s).power =
      s.power := rfl
@[simp] theorem setTimer_drainTimer (e : ExtentId) (t : IdleTimer) :
    (setTimer e t s).drainTimer =
      s.drainTimer := rfl
@[simp] theorem setTimer_powerGood (e : ExtentId) (t : IdleTimer) :
    (setTimer e t s).powerGood =
      s.powerGood := rfl
@[simp] theorem setTimer_resetN (e : ExtentId) (t : IdleTimer) :
    (setTimer e t s).resetN =
      s.resetN := rfl
@[simp] theorem setTimer_holdLevel (e : ExtentId) (t : IdleTimer) :
    (setTimer e t s).holdLevel =
      s.holdLevel := rfl
@[simp] theorem setTimer_attn (e : ExtentId) (t : IdleTimer) : (setTimer e t s).attn = s.attn := rfl
@[simp] theorem setTimer_draws (e : ExtentId) (t : IdleTimer) :
    (setTimer e t s).draws =
      s.draws := rfl
@[simp] theorem setTimer_outControl (e : ExtentId) (t : IdleTimer) :
    (setTimer e t s).outControl =
      s.outControl := rfl
@[simp] theorem setTimer_outData (e : ExtentId) (t : IdleTimer) :
    (setTimer e t s).outData =
      s.outData := rfl
@[simp] theorem setTimer_pending (e : ExtentId) (t : IdleTimer) :
    (setTimer e t s).pending =
      s.pending := rfl
@[simp] theorem setTimer_powered (e : ExtentId) (t : IdleTimer) :
    (setTimer e t s).powered = s.powered := rfl

/-! ## setRandom -/

@[simp] theorem setRandom_jobs (r : RandomSource) : (setRandom r s).jobs = s.jobs := rfl
@[simp] theorem setRandom_buffers (r : RandomSource) : (setRandom r s).buffers = s.buffers := rfl
@[simp] theorem setRandom_ready (r : RandomSource) : (setRandom r s).ready = s.ready := rfl
@[simp] theorem setRandom_withheld (r : RandomSource) : (setRandom r s).withheld = s.withheld := rfl
@[simp] theorem setRandom_inbound (r : RandomSource) : (setRandom r s).inbound = s.inbound := rfl
@[simp] theorem setRandom_stallOnFull (r : RandomSource) :
    (setRandom r s).stallOnFull =
      s.stallOnFull := rfl
@[simp] theorem setRandom_namespaces (r : RandomSource) :
    (setRandom r s).namespaces =
      s.namespaces := rfl
@[simp] theorem setRandom_extents (r : RandomSource) : (setRandom r s).extents = s.extents := rfl
@[simp] theorem setRandom_slots (r : RandomSource) : (setRandom r s).slots = s.slots := rfl
@[simp] theorem setRandom_pipes (r : RandomSource) : (setRandom r s).pipes = s.pipes := rfl
@[simp] theorem setRandom_context (r : RandomSource) : (setRandom r s).context = s.context := rfl
@[simp] theorem setRandom_random (r : RandomSource) : (setRandom r s).random = r := rfl
@[simp] theorem setRandom_link (r : RandomSource) : (setRandom r s).link = s.link := rfl
@[simp] theorem setRandom_tickPeriod (r : RandomSource) :
    (setRandom r s).tickPeriod =
      s.tickPeriod := rfl
@[simp] theorem setRandom_divider (r : RandomSource) : (setRandom r s).divider = s.divider := rfl
@[simp] theorem setRandom_drainLimit (r : RandomSource) :
    (setRandom r s).drainLimit =
      s.drainLimit := rfl
@[simp] theorem setRandom_timers (r : RandomSource) : (setRandom r s).timers = s.timers := rfl
@[simp] theorem setRandom_executing (r : RandomSource) :
    (setRandom r s).executing =
      s.executing := rfl
@[simp] theorem setRandom_flags (r : RandomSource) : (setRandom r s).flags = s.flags := rfl
@[simp] theorem setRandom_power (r : RandomSource) : (setRandom r s).power = s.power := rfl
@[simp] theorem setRandom_drainTimer (r : RandomSource) :
    (setRandom r s).drainTimer =
      s.drainTimer := rfl
@[simp] theorem setRandom_powerGood (r : RandomSource) :
    (setRandom r s).powerGood =
      s.powerGood := rfl
@[simp] theorem setRandom_resetN (r : RandomSource) : (setRandom r s).resetN = s.resetN := rfl
@[simp] theorem setRandom_holdLevel (r : RandomSource) :
    (setRandom r s).holdLevel =
      s.holdLevel := rfl
@[simp] theorem setRandom_attn (r : RandomSource) : (setRandom r s).attn = s.attn := rfl
@[simp] theorem setRandom_draws (r : RandomSource) : (setRandom r s).draws = s.draws := rfl
@[simp] theorem setRandom_outControl (r : RandomSource) :
    (setRandom r s).outControl =
      s.outControl := rfl
@[simp] theorem setRandom_outData (r : RandomSource) : (setRandom r s).outData = s.outData := rfl
@[simp] theorem setRandom_pending (r : RandomSource) : (setRandom r s).pending = s.pending := rfl
@[simp] theorem setRandom_powered (r : RandomSource) : (setRandom r s).powered = s.powered := rfl

/-! ## setContext -/

@[simp] theorem setContext_jobs (c : WorkingContext) : (setContext c s).jobs = s.jobs := rfl
@[simp] theorem setContext_buffers (c : WorkingContext) :
    (setContext c s).buffers =
      s.buffers := rfl
@[simp] theorem setContext_ready (c : WorkingContext) : (setContext c s).ready = s.ready := rfl
@[simp] theorem setContext_withheld (c : WorkingContext) :
    (setContext c s).withheld =
      s.withheld := rfl
@[simp] theorem setContext_inbound (c : WorkingContext) :
    (setContext c s).inbound =
      s.inbound := rfl
@[simp] theorem setContext_stallOnFull (c : WorkingContext) :
    (setContext c s).stallOnFull =
      s.stallOnFull := rfl
@[simp] theorem setContext_namespaces (c : WorkingContext) :
    (setContext c s).namespaces =
      s.namespaces := rfl
@[simp] theorem setContext_extents (c : WorkingContext) :
    (setContext c s).extents =
      s.extents := rfl
@[simp] theorem setContext_slots (c : WorkingContext) : (setContext c s).slots = s.slots := rfl
@[simp] theorem setContext_pipes (c : WorkingContext) : (setContext c s).pipes = s.pipes := rfl
@[simp] theorem setContext_context (c : WorkingContext) : (setContext c s).context = c := rfl
@[simp] theorem setContext_random (c : WorkingContext) : (setContext c s).random = s.random := rfl
@[simp] theorem setContext_link (c : WorkingContext) : (setContext c s).link = s.link := rfl
@[simp] theorem setContext_tickPeriod (c : WorkingContext) :
    (setContext c s).tickPeriod =
      s.tickPeriod := rfl
@[simp] theorem setContext_divider (c : WorkingContext) :
    (setContext c s).divider =
      s.divider := rfl
@[simp] theorem setContext_drainLimit (c : WorkingContext) :
    (setContext c s).drainLimit =
      s.drainLimit := rfl
@[simp] theorem setContext_timers (c : WorkingContext) : (setContext c s).timers = s.timers := rfl
@[simp] theorem setContext_executing (c : WorkingContext) :
    (setContext c s).executing =
      s.executing := rfl
@[simp] theorem setContext_flags (c : WorkingContext) : (setContext c s).flags = s.flags := rfl
@[simp] theorem setContext_power (c : WorkingContext) : (setContext c s).power = s.power := rfl
@[simp] theorem setContext_drainTimer (c : WorkingContext) :
    (setContext c s).drainTimer =
      s.drainTimer := rfl
@[simp] theorem setContext_powerGood (c : WorkingContext) :
    (setContext c s).powerGood =
      s.powerGood := rfl
@[simp] theorem setContext_resetN (c : WorkingContext) : (setContext c s).resetN = s.resetN := rfl
@[simp] theorem setContext_holdLevel (c : WorkingContext) :
    (setContext c s).holdLevel =
      s.holdLevel := rfl
@[simp] theorem setContext_attn (c : WorkingContext) : (setContext c s).attn = s.attn := rfl
@[simp] theorem setContext_draws (c : WorkingContext) : (setContext c s).draws = s.draws := rfl
@[simp] theorem setContext_outControl (c : WorkingContext) :
    (setContext c s).outControl =
      s.outControl := rfl
@[simp] theorem setContext_outData (c : WorkingContext) :
    (setContext c s).outData =
      s.outData := rfl
@[simp] theorem setContext_pending (c : WorkingContext) :
    (setContext c s).pending =
      s.pending := rfl
@[simp] theorem setContext_powered (c : WorkingContext) :
    (setContext c s).powered = s.powered := rfl

/-! ## setExecuting -/

@[simp] theorem setExecuting_jobs (x : Option Executing) : (setExecuting x s).jobs = s.jobs := rfl
@[simp] theorem setExecuting_buffers (x : Option Executing) :
    (setExecuting x s).buffers =
      s.buffers := rfl
@[simp] theorem setExecuting_ready (x : Option Executing) :
    (setExecuting x s).ready =
      s.ready := rfl
@[simp] theorem setExecuting_withheld (x : Option Executing) :
    (setExecuting x s).withheld =
      s.withheld := rfl
@[simp] theorem setExecuting_inbound (x : Option Executing) :
    (setExecuting x s).inbound =
      s.inbound := rfl
@[simp] theorem setExecuting_stallOnFull (x : Option Executing) :
    (setExecuting x s).stallOnFull =
      s.stallOnFull := rfl
@[simp] theorem setExecuting_namespaces (x : Option Executing) :
    (setExecuting x s).namespaces =
      s.namespaces := rfl
@[simp] theorem setExecuting_extents (x : Option Executing) :
    (setExecuting x s).extents =
      s.extents := rfl
@[simp] theorem setExecuting_slots (x : Option Executing) :
    (setExecuting x s).slots =
      s.slots := rfl
@[simp] theorem setExecuting_pipes (x : Option Executing) :
    (setExecuting x s).pipes =
      s.pipes := rfl
@[simp] theorem setExecuting_context (x : Option Executing) :
    (setExecuting x s).context =
      s.context := rfl
@[simp] theorem setExecuting_random (x : Option Executing) :
    (setExecuting x s).random =
      s.random := rfl
@[simp] theorem setExecuting_link (x : Option Executing) : (setExecuting x s).link = s.link := rfl
@[simp] theorem setExecuting_tickPeriod (x : Option Executing) :
    (setExecuting x s).tickPeriod =
      s.tickPeriod := rfl
@[simp] theorem setExecuting_divider (x : Option Executing) :
    (setExecuting x s).divider =
      s.divider := rfl
@[simp] theorem setExecuting_drainLimit (x : Option Executing) :
    (setExecuting x s).drainLimit =
      s.drainLimit := rfl
@[simp] theorem setExecuting_timers (x : Option Executing) :
    (setExecuting x s).timers =
      s.timers := rfl
@[simp] theorem setExecuting_executing (x : Option Executing) :
    (setExecuting x s).executing =
      x := rfl
@[simp] theorem setExecuting_flags (x : Option Executing) :
    (setExecuting x s).flags =
      s.flags := rfl
@[simp] theorem setExecuting_power (x : Option Executing) :
    (setExecuting x s).power =
      s.power := rfl
@[simp] theorem setExecuting_drainTimer (x : Option Executing) :
    (setExecuting x s).drainTimer =
      s.drainTimer := rfl
@[simp] theorem setExecuting_powerGood (x : Option Executing) :
    (setExecuting x s).powerGood =
      s.powerGood := rfl
@[simp] theorem setExecuting_resetN (x : Option Executing) :
    (setExecuting x s).resetN =
      s.resetN := rfl
@[simp] theorem setExecuting_holdLevel (x : Option Executing) :
    (setExecuting x s).holdLevel =
      s.holdLevel := rfl
@[simp] theorem setExecuting_attn (x : Option Executing) : (setExecuting x s).attn = s.attn := rfl
@[simp] theorem setExecuting_draws (x : Option Executing) :
    (setExecuting x s).draws =
      s.draws := rfl
@[simp] theorem setExecuting_outControl (x : Option Executing) :
    (setExecuting x s).outControl =
      s.outControl := rfl
@[simp] theorem setExecuting_outData (x : Option Executing) :
    (setExecuting x s).outData =
      s.outData := rfl
@[simp] theorem setExecuting_pending (x : Option Executing) :
    (setExecuting x s).pending =
      s.pending := rfl
@[simp] theorem setExecuting_powered (x : Option Executing) :
    (setExecuting x s).powered = s.powered := rfl

/-! ## setLinkMaster -/

@[simp] theorem setLinkMaster_jobs (l : LinkMaster) : (setLinkMaster l s).jobs = s.jobs := rfl
@[simp] theorem setLinkMaster_buffers (l : LinkMaster) :
    (setLinkMaster l s).buffers =
      s.buffers := rfl
@[simp] theorem setLinkMaster_ready (l : LinkMaster) : (setLinkMaster l s).ready = s.ready := rfl
@[simp] theorem setLinkMaster_withheld (l : LinkMaster) :
    (setLinkMaster l s).withheld =
      s.withheld := rfl
@[simp] theorem setLinkMaster_inbound (l : LinkMaster) :
    (setLinkMaster l s).inbound =
      s.inbound := rfl
@[simp] theorem setLinkMaster_stallOnFull (l : LinkMaster) :
    (setLinkMaster l s).stallOnFull =
      s.stallOnFull := rfl
@[simp] theorem setLinkMaster_namespaces (l : LinkMaster) :
    (setLinkMaster l s).namespaces =
      s.namespaces := rfl
@[simp] theorem setLinkMaster_extents (l : LinkMaster) :
    (setLinkMaster l s).extents =
      s.extents := rfl
@[simp] theorem setLinkMaster_slots (l : LinkMaster) : (setLinkMaster l s).slots = s.slots := rfl
@[simp] theorem setLinkMaster_pipes (l : LinkMaster) : (setLinkMaster l s).pipes = s.pipes := rfl
@[simp] theorem setLinkMaster_context (l : LinkMaster) :
    (setLinkMaster l s).context =
      s.context := rfl
@[simp] theorem setLinkMaster_random (l : LinkMaster) : (setLinkMaster l s).random = s.random := rfl
@[simp] theorem setLinkMaster_link (l : LinkMaster) : (setLinkMaster l s).link = l := rfl
@[simp] theorem setLinkMaster_tickPeriod (l : LinkMaster) :
    (setLinkMaster l s).tickPeriod =
      s.tickPeriod := rfl
@[simp] theorem setLinkMaster_divider (l : LinkMaster) :
    (setLinkMaster l s).divider =
      s.divider := rfl
@[simp] theorem setLinkMaster_drainLimit (l : LinkMaster) :
    (setLinkMaster l s).drainLimit =
      s.drainLimit := rfl
@[simp] theorem setLinkMaster_timers (l : LinkMaster) : (setLinkMaster l s).timers = s.timers := rfl
@[simp] theorem setLinkMaster_executing (l : LinkMaster) :
    (setLinkMaster l s).executing =
      s.executing := rfl
@[simp] theorem setLinkMaster_flags (l : LinkMaster) : (setLinkMaster l s).flags = s.flags := rfl
@[simp] theorem setLinkMaster_power (l : LinkMaster) : (setLinkMaster l s).power = s.power := rfl
@[simp] theorem setLinkMaster_drainTimer (l : LinkMaster) :
    (setLinkMaster l s).drainTimer =
      s.drainTimer := rfl
@[simp] theorem setLinkMaster_powerGood (l : LinkMaster) :
    (setLinkMaster l s).powerGood =
      s.powerGood := rfl
@[simp] theorem setLinkMaster_resetN (l : LinkMaster) : (setLinkMaster l s).resetN = s.resetN := rfl
@[simp] theorem setLinkMaster_holdLevel (l : LinkMaster) :
    (setLinkMaster l s).holdLevel =
      s.holdLevel := rfl
@[simp] theorem setLinkMaster_attn (l : LinkMaster) : (setLinkMaster l s).attn = s.attn := rfl
@[simp] theorem setLinkMaster_draws (l : LinkMaster) : (setLinkMaster l s).draws = s.draws := rfl
@[simp] theorem setLinkMaster_outControl (l : LinkMaster) :
    (setLinkMaster l s).outControl =
      s.outControl := rfl
@[simp] theorem setLinkMaster_outData (l : LinkMaster) :
    (setLinkMaster l s).outData =
      s.outData := rfl
@[simp] theorem setLinkMaster_pending (l : LinkMaster) :
    (setLinkMaster l s).pending =
      s.pending := rfl
@[simp] theorem setLinkMaster_powered (l : LinkMaster) :
    (setLinkMaster l s).powered = s.powered := rfl

/-! ## refreshAttn -/

@[simp] theorem refreshAttn_jobs : (refreshAttn s).jobs = s.jobs := rfl
@[simp] theorem refreshAttn_buffers : (refreshAttn s).buffers = s.buffers := rfl
@[simp] theorem refreshAttn_ready : (refreshAttn s).ready = s.ready := rfl
@[simp] theorem refreshAttn_withheld : (refreshAttn s).withheld = s.withheld := rfl
@[simp] theorem refreshAttn_inbound : (refreshAttn s).inbound = s.inbound := rfl
@[simp] theorem refreshAttn_stallOnFull : (refreshAttn s).stallOnFull = s.stallOnFull := rfl
@[simp] theorem refreshAttn_namespaces : (refreshAttn s).namespaces = s.namespaces := rfl
@[simp] theorem refreshAttn_extents : (refreshAttn s).extents = s.extents := rfl
@[simp] theorem refreshAttn_slots : (refreshAttn s).slots = s.slots := rfl
@[simp] theorem refreshAttn_pipes : (refreshAttn s).pipes = s.pipes := rfl
@[simp] theorem refreshAttn_context : (refreshAttn s).context = s.context := rfl
@[simp] theorem refreshAttn_random : (refreshAttn s).random = s.random := rfl
@[simp] theorem refreshAttn_link : (refreshAttn s).link = s.link := rfl
@[simp] theorem refreshAttn_tickPeriod : (refreshAttn s).tickPeriod = s.tickPeriod := rfl
@[simp] theorem refreshAttn_divider : (refreshAttn s).divider = s.divider := rfl
@[simp] theorem refreshAttn_drainLimit : (refreshAttn s).drainLimit = s.drainLimit := rfl
@[simp] theorem refreshAttn_timers : (refreshAttn s).timers = s.timers := rfl
@[simp] theorem refreshAttn_executing : (refreshAttn s).executing = s.executing := rfl
@[simp] theorem refreshAttn_flags : (refreshAttn s).flags = s.flags := rfl
@[simp] theorem refreshAttn_power : (refreshAttn s).power = s.power := rfl
@[simp] theorem refreshAttn_drainTimer : (refreshAttn s).drainTimer = s.drainTimer := rfl
@[simp] theorem refreshAttn_powerGood : (refreshAttn s).powerGood = s.powerGood := rfl
@[simp] theorem refreshAttn_resetN : (refreshAttn s).resetN = s.resetN := rfl
@[simp] theorem refreshAttn_holdLevel : (refreshAttn s).holdLevel = s.holdLevel := rfl
@[simp] theorem refreshAttn_attn : (refreshAttn s).attn = attnLevel s := rfl
@[simp] theorem refreshAttn_draws : (refreshAttn s).draws = s.draws := rfl
@[simp] theorem refreshAttn_outControl : (refreshAttn s).outControl = s.outControl := rfl
@[simp] theorem refreshAttn_outData : (refreshAttn s).outData = s.outData := rfl
@[simp] theorem refreshAttn_pending : (refreshAttn s).pending = s.pending := rfl
@[simp] theorem refreshAttn_powered : (refreshAttn s).powered = s.powered := rfl

/-! ## setFlag -/

@[simp] theorem setFlag_jobs (f : Flag) : (setFlag f s).jobs = s.jobs := rfl
@[simp] theorem setFlag_buffers (f : Flag) : (setFlag f s).buffers = s.buffers := rfl
@[simp] theorem setFlag_ready (f : Flag) : (setFlag f s).ready = s.ready := rfl
@[simp] theorem setFlag_withheld (f : Flag) : (setFlag f s).withheld = s.withheld := rfl
@[simp] theorem setFlag_inbound (f : Flag) : (setFlag f s).inbound = s.inbound := rfl
@[simp] theorem setFlag_stallOnFull (f : Flag) : (setFlag f s).stallOnFull = s.stallOnFull := rfl
@[simp] theorem setFlag_namespaces (f : Flag) : (setFlag f s).namespaces = s.namespaces := rfl
@[simp] theorem setFlag_extents (f : Flag) : (setFlag f s).extents = s.extents := rfl
@[simp] theorem setFlag_slots (f : Flag) : (setFlag f s).slots = s.slots := rfl
@[simp] theorem setFlag_pipes (f : Flag) : (setFlag f s).pipes = s.pipes := rfl
@[simp] theorem setFlag_context (f : Flag) : (setFlag f s).context = s.context := rfl
@[simp] theorem setFlag_random (f : Flag) : (setFlag f s).random = s.random := rfl
@[simp] theorem setFlag_link (f : Flag) : (setFlag f s).link = s.link := rfl
@[simp] theorem setFlag_tickPeriod (f : Flag) : (setFlag f s).tickPeriod = s.tickPeriod := rfl
@[simp] theorem setFlag_divider (f : Flag) : (setFlag f s).divider = s.divider := rfl
@[simp] theorem setFlag_drainLimit (f : Flag) : (setFlag f s).drainLimit = s.drainLimit := rfl
@[simp] theorem setFlag_timers (f : Flag) : (setFlag f s).timers = s.timers := rfl
@[simp] theorem setFlag_executing (f : Flag) : (setFlag f s).executing = s.executing := rfl
@[simp] theorem setFlag_flags (f : Flag) :
    (setFlag f s).flags =
      s.flags.set f.idx { state := .set false, enable := s.flags[f.idx].enable } := rfl
@[simp] theorem setFlag_power (f : Flag) : (setFlag f s).power = s.power := rfl
@[simp] theorem setFlag_drainTimer (f : Flag) : (setFlag f s).drainTimer = s.drainTimer := rfl
@[simp] theorem setFlag_powerGood (f : Flag) : (setFlag f s).powerGood = s.powerGood := rfl
@[simp] theorem setFlag_resetN (f : Flag) : (setFlag f s).resetN = s.resetN := rfl
@[simp] theorem setFlag_holdLevel (f : Flag) : (setFlag f s).holdLevel = s.holdLevel := rfl
@[simp] theorem setFlag_draws (f : Flag) : (setFlag f s).draws = s.draws := rfl
@[simp] theorem setFlag_outControl (f : Flag) : (setFlag f s).outControl = s.outControl := rfl
@[simp] theorem setFlag_outData (f : Flag) : (setFlag f s).outData = s.outData := rfl
@[simp] theorem setFlag_pending (f : Flag) : (setFlag f s).pending = s.pending := rfl
@[simp] theorem setFlag_powered (f : Flag) : (setFlag f s).powered = s.powered := rfl

/-! ## mapFlags -/

@[simp] theorem mapFlags_jobs (g : Fin 13 → EventFlag → EventFlag) :
    (mapFlags g s).jobs =
      s.jobs := rfl
@[simp] theorem mapFlags_buffers (g : Fin 13 → EventFlag → EventFlag) :
    (mapFlags g s).buffers =
      s.buffers := rfl
@[simp] theorem mapFlags_ready (g : Fin 13 → EventFlag → EventFlag) :
    (mapFlags g s).ready =
      s.ready := rfl
@[simp] theorem mapFlags_withheld (g : Fin 13 → EventFlag → EventFlag) :
    (mapFlags g s).withheld =
      s.withheld := rfl
@[simp] theorem mapFlags_inbound (g : Fin 13 → EventFlag → EventFlag) :
    (mapFlags g s).inbound =
      s.inbound := rfl
@[simp] theorem mapFlags_stallOnFull (g : Fin 13 → EventFlag → EventFlag) :
    (mapFlags g s).stallOnFull =
      s.stallOnFull := rfl
@[simp] theorem mapFlags_namespaces (g : Fin 13 → EventFlag → EventFlag) :
    (mapFlags g s).namespaces =
      s.namespaces := rfl
@[simp] theorem mapFlags_extents (g : Fin 13 → EventFlag → EventFlag) :
    (mapFlags g s).extents =
      s.extents := rfl
@[simp] theorem mapFlags_slots (g : Fin 13 → EventFlag → EventFlag) :
    (mapFlags g s).slots =
      s.slots := rfl
@[simp] theorem mapFlags_pipes (g : Fin 13 → EventFlag → EventFlag) :
    (mapFlags g s).pipes =
      s.pipes := rfl
@[simp] theorem mapFlags_context (g : Fin 13 → EventFlag → EventFlag) :
    (mapFlags g s).context =
      s.context := rfl
@[simp] theorem mapFlags_random (g : Fin 13 → EventFlag → EventFlag) :
    (mapFlags g s).random =
      s.random := rfl
@[simp] theorem mapFlags_link (g : Fin 13 → EventFlag → EventFlag) :
    (mapFlags g s).link =
      s.link := rfl
@[simp] theorem mapFlags_tickPeriod (g : Fin 13 → EventFlag → EventFlag) :
    (mapFlags g s).tickPeriod =
      s.tickPeriod := rfl
@[simp] theorem mapFlags_divider (g : Fin 13 → EventFlag → EventFlag) :
    (mapFlags g s).divider =
      s.divider := rfl
@[simp] theorem mapFlags_drainLimit (g : Fin 13 → EventFlag → EventFlag) :
    (mapFlags g s).drainLimit =
      s.drainLimit := rfl
@[simp] theorem mapFlags_timers (g : Fin 13 → EventFlag → EventFlag) :
    (mapFlags g s).timers =
      s.timers := rfl
@[simp] theorem mapFlags_executing (g : Fin 13 → EventFlag → EventFlag) :
    (mapFlags g s).executing =
      s.executing := rfl
@[simp] theorem mapFlags_flags (g : Fin 13 → EventFlag → EventFlag) :
    (mapFlags g s).flags =
      Vector.ofFn fun i => g i s.flags[i] := rfl
@[simp] theorem mapFlags_power (g : Fin 13 → EventFlag → EventFlag) :
    (mapFlags g s).power =
      s.power := rfl
@[simp] theorem mapFlags_drainTimer (g : Fin 13 → EventFlag → EventFlag) :
    (mapFlags g s).drainTimer =
      s.drainTimer := rfl
@[simp] theorem mapFlags_powerGood (g : Fin 13 → EventFlag → EventFlag) :
    (mapFlags g s).powerGood =
      s.powerGood := rfl
@[simp] theorem mapFlags_resetN (g : Fin 13 → EventFlag → EventFlag) :
    (mapFlags g s).resetN =
      s.resetN := rfl
@[simp] theorem mapFlags_holdLevel (g : Fin 13 → EventFlag → EventFlag) :
    (mapFlags g s).holdLevel =
      s.holdLevel := rfl
@[simp] theorem mapFlags_draws (g : Fin 13 → EventFlag → EventFlag) :
    (mapFlags g s).draws =
      s.draws := rfl
@[simp] theorem mapFlags_outControl (g : Fin 13 → EventFlag → EventFlag) :
    (mapFlags g s).outControl =
      s.outControl := rfl
@[simp] theorem mapFlags_outData (g : Fin 13 → EventFlag → EventFlag) :
    (mapFlags g s).outData =
      s.outData := rfl
@[simp] theorem mapFlags_pending (g : Fin 13 → EventFlag → EventFlag) :
    (mapFlags g s).pending =
      s.pending := rfl
@[simp] theorem mapFlags_powered (g : Fin 13 → EventFlag → EventFlag) :
    (mapFlags g s).powered = s.powered := rfl

end Sys2Proof.Machine
end

