-- ==== Sys2Proof/Laws/Ops.lean ====
section
/-! SUPPORT. What each shared operation can do, said once: when it acts, and which fields it can change
(`op s = { s with … }`: every field not named stays as it was). -/

namespace Sys2Proof.Machine

/-! ## Rules -/

theorem rule_of_powered (f : State → State) {s : State} (h : s.powered = true) :
    rule f s = .next (f s) := by
  simp [rule, h]

theorem rule_of_inert (f : State → State) {s : State} (h : s.powered = false) :
    rule f s = .next s := by
  simp [rule, h]

theorem rule_answers_next (f : State → State) (s : State) : ∃ t, rule f s = .next t :=
  ⟨_, rfl⟩

theorem tableEmpty_iff (s : State) : tableEmpty s = true ↔ ∀ t : TagId, s.jobs[t] = none := by
  simp [tableEmpty, Option.isNone_iff_eq_none]

theorem lockingStepIfDue_of_job {s : State} (h : ∃ t : TagId, s.jobs[t].isSome = true) :
    lockingStepIfDue s = s := by
  obtain ⟨t, ht⟩ := h
  have : ¬tableEmpty s = true := fun e => by simp [(tableEmpty_iff s).1 e t] at ht
  simp [lockingStepIfDue, this]

theorem lockingStepIfDue_of_power {s : State} (h : s.power ≠ .quiescing) :
    lockingStepIfDue s = s := by
  simp [lockingStepIfDue, h]

theorem lockingStepIfDue_of_executing {s : State} (h : s.executing.isSome = true) :
    lockingStepIfDue s = s := by
  have : s.executing.isNone = false := by cases hx : s.executing <;> simp_all
  simp [lockingStepIfDue, this]

theorem lockingStepIfDue_of_due {s : State} (hp : s.power = .quiescing)
    (ht : ∀ t : TagId, s.jobs[t] = none) (he : s.executing = none) :
    lockingStepIfDue s = lockingStep s := by
  simp [lockingStepIfDue, hp, (tableEmpty_iff s).2 ht, he]

theorem closingRule_of_powered (f : State → State) {s : State} (h : s.powered = true) :
    closingRule f s = .next (lockingStepIfDue (f s)) :=
  rule_of_powered _ h

/-! ## Steps -/

theorem step_of_pending {s : State} {c : Instr} {rest : List Instr} (h : s.pending = c :: rest) :
    step s = exec c { s with pending := rest } := by
  simp [step, h]

theorem step_of_empty {s : State} (h : s.pending = []) : step s = .next (timePasses s) := by
  simp [step, h]

/-! ## Flags and ATTN (R151, R152) -/

theorem powered_iff (s : State) : s.powered = true ↔ s.powerGood = true ∧ s.resetN = true := by
  simp [State.powered]

theorem attnLevel_iff (s : State) :
    attnLevel s = true ↔
      s.powerGood = true ∧ s.resetN = true ∧
        ∃ i : Fin 13, s.flags[i].isSet = true ∧ s.flags[i].enable = true := by
  simp [attnLevel, powered_iff, and_assoc]

/-- ATTN follows the flags in every state that a refresh makes. -/
theorem refreshAttn_follows (s : State) : AttnFollowsFlags (refreshAttn s) :=
  attnLevel_iff s

theorem setFlag_follows (f : Flag) (s : State) : AttnFollowsFlags (setFlag f s) :=
  refreshAttn_follows _

theorem mapFlags_follows (g : Fin 13 → EventFlag → EventFlag) (s : State) :
    AttnFollowsFlags (mapFlags g s) :=
  refreshAttn_follows _

/-- ATTN follows in a state whose flags, lines and ATTN are those of one where it follows. -/
theorem attnFollows_of_same {s t : State} (h : AttnFollowsFlags s) (ha : t.attn = s.attn)
    (hf : t.flags = s.flags) (hp : t.powerGood = s.powerGood) (hr : t.resetN = s.resetN) :
    AttnFollowsFlags t := by
  unfold AttnFollowsFlags at *
  rw [ha, hp, hr, hf]
  exact h

theorem Flag.idx_injective : Function.Injective Flag.idx := by
  intro f g h
  cases f <;> cases g <;> first | rfl | exact absurd h (by decide)

/-- The flag set is SET with mark no and keeps its enable; no other flag changes. -/
theorem setFlag_flag (f g : Flag) (s : State) :
    (setFlag f s).flags[g.idx] =
      if g = f then { state := .set false, enable := s.flags[f.idx].enable } else s.flags[g.idx] := by
  by_cases h : g = f
  · subst h; simp
  · have : f.idx.val ≠ g.idx.val := fun e => h (Flag.idx_injective (Fin.ext e.symm))
    simp [h, this]

theorem setFlag_changes (f : Flag) (s : State) :
    setFlag f s = { s with flags := (setFlag f s).flags, attn := (setFlag f s).attn } := rfl

theorem mapFlags_changes (g : Fin 13 → EventFlag → EventFlag) (s : State) :
    mapFlags g s = { s with flags := (mapFlags g s).flags, attn := (mapFlags g s).attn } := rfl

/-- A sum of distinct powers of two, by its bits. -/
theorem bits_sum (n : Nat) (b : Fin n → Bool) :
    ((List.finRange n).map fun i => if b i then 2 ^ i.val else 0).sum < 2 ^ n ∧
      ∀ i : Fin n, (((List.finRange n).map fun i => if b i then 2 ^ i.val else 0).sum).testBit i = b i := by
  induction n with
  | zero => exact ⟨by simp, fun i => i.elim0⟩
  | succ n ih =>
    obtain ⟨hlt, hbit⟩ := ih fun i => b i.castSucc
    rw [List.finRange_succ_last]
    simp only [List.map_append, List.map_map, List.map_cons, List.map_nil, List.sum_append,
      List.sum_cons, List.sum_nil, Nat.add_zero, Function.comp_def, Fin.val_castSucc, Fin.val_last]
    set v := ((List.finRange n).map fun i => if b i.castSucc then 2 ^ i.val else 0).sum
    refine ⟨?_, fun i => ?_⟩
    · rw [Nat.pow_succ]; split <;> omega
    · refine Fin.lastCases ?_ (fun i => ?_) i
      · cases hb : b (Fin.last n)
        · simpa [hb] using Nat.testBit_lt_two_pow hlt
        · simp [Nat.add_comm v, Nat.testBit_two_pow_add_eq, Nat.testBit_lt_two_pow hlt]
      · cases hb : b (Fin.last n)
        · simpa [hb] using hbit i
        · simp [Nat.add_comm v, Nat.testBit_two_pow_add_gt i.isLt, hbit i]

/-- Each bit of a flag set stands for the flag in its place, and no bit stands above the 13th. -/
theorem flagSet_bits (p : EventFlag → Bool) (s : State) :
    flagSet p s < 2 ^ 13 ∧ ∀ i : Fin 13, (flagSet p s).testBit i = p s.flags[i] :=
  bits_sum 13 fun i => p s.flags[i]

/-! ## The Job Table, read -/

theorem jobsNaming_of_jobs {s t : State} (h : t.jobs = s.jobs) (e : ExtentId) :
    jobsNaming e t = jobsNaming e s := by
  simp [jobsNaming, h]

/-! ## Idle timers (R140, R141) -/

theorem armed_iff (x : Extent) :
    armed x = true ↔
      x.key.isLive = true ∧ ¬(x.readLock = true ∧ x.writeLock = true) ∧ x.policy.idleMode ≠ .off := by
  simp [armed, and_assoc]
  intro _
  cases x.readLock <;> cases x.writeLock <;> simp

/-- A timer judged anew starts at its full count. -/
theorem judgedTimer_restart {e : ExtentId} {x : Extent} {s : State} (h : s.extents[e] = some x) :
    judgedTimer true e s = freshTimer x (jobsNaming e s) := by
  simp only [judgedTimer, freshTimer, h]
  by_cases ha : armed x = true
  · rw [if_pos ha, if_pos ((armed_iff x).1 ha)]
  · rw [if_neg ha, if_neg (fun c => ha ((armed_iff x).2 c))]

/-- A timer judged without a restart keeps a count that goes on. -/
theorem judgedTimer_keep {e : ExtentId} {x : Extent} {s : State} (h : s.extents[e] = some x) :
    judgedTimer false e s = keptTimer x (jobsNaming e s) s.timers[e] := by
  simp only [judgedTimer, keptTimer, freshTimer, h]
  by_cases ha : armed x = true
  · rw [if_pos ha, if_pos ((armed_iff x).1 ha)]
    by_cases hj : 0 < jobsNaming e s
    · simp [hj]
    · simp only [hj, if_false]
      cases s.timers[e] <;> rfl
  · rw [if_neg ha, if_neg (fun c => ha ((armed_iff x).2 c))]

theorem judgedTimer_free {e : ExtentId} {s : State} (r : Bool) (h : s.extents[e] = none) :
    judgedTimer r e s = .disarmed := by
  simp [judgedTimer, h]

/-- Judging a DEFINED extent's timer anew. -/
theorem judgeTimer_restart {e : ExtentId} {x : Extent} {s : State} (h : s.extents[e] = some x) :
    judgeTimer true e s = setTimer e (freshTimer x (jobsNaming e s)) s := by
  rw [judgeTimer, judgedTimer_restart h]

/-- Judging a DEFINED extent's timer without a restart. -/
theorem judgeTimer_keep {e : ExtentId} {x : Extent} {s : State} (h : s.extents[e] = some x) :
    judgeTimer false e s = setTimer e (keptTimer x (jobsNaming e s) s.timers[e]) s := by
  rw [judgeTimer, judgedTimer_keep h]

theorem judgeTimer_changes (r : Bool) (e : ExtentId) (s : State) :
    judgeTimer r e s = { s with timers := s.timers.set e (judgedTimer r e s) } := rfl

theorem updateExtent_of_defined (f : Extent → Extent) {e : ExtentId} {x : Extent} {s : State}
    (h : s.extents[e] = some x) : updateExtent e f s = setExtent e (some (f x)) s := by
  simp only [updateExtent, h, Option.map]

theorem updateExtent_changes (e : ExtentId) (f : Extent → Extent) (s : State) :
    updateExtent e f s = { s with extents := s.extents.set e (s.extents[e].map f) } := rfl

/-! ## Requests -/

theorem answer_eq_sent (n : RequestName) (r : Request) (c : ResultCode) (items : List Item)
    (s : State) : answer n r.seq c items s = sent (answerTo n r c items) s := rfl

theorem endRequest_eq_ended (n : RequestName) (seq : Byte) (c : ResultCode) (items : List Item)
    (s : State) : endRequest n seq c items s = ended n seq c items s := rfl

theorem takeRequest_busy (n : RequestName) (seq : Byte) (own : State → State) {s : State}
    (h : s.executing.isSome = true) : takeRequest n seq own s = answer n seq .busy [] s := by
  simp [takeRequest, h]

theorem takeRequest_always {n : RequestName} (seq : Byte) (own : State → State) {s : State}
    (hn : RequestName.alwaysAccepted n = true) (h : s.executing = none) : takeRequest n seq own s = own s := by
  simp [takeRequest, h, hn]

theorem takeRequest_refused {n : RequestName} (seq : Byte) (own : State → State) {s : State}
    {c : ResultCode} (hn : RequestName.alwaysAccepted n = false) (h : s.executing = none)
    (hc : notAccepted s.power = some c) : takeRequest n seq own s = answer n seq c [] s := by
  simp [takeRequest, h, hn, hc]

theorem takeRequest_run (n : RequestName) (seq : Byte) (own : State → State) {s : State}
    (h : s.executing = none) (hp : s.power = .run) : takeRequest n seq own s = own s := by
  simp [takeRequest, h, hp, notAccepted]

/-- A request of a part that accepts every request reaches its own rule. -/
theorem rule_takeRequest_of_accepts (n : RequestName) (seq : Byte) (own : State → State) {s : State}
    (h : Accepts s) : rule (takeRequest n seq own) s = .next (own s) := by
  rw [rule_of_powered _ h.1.1, takeRequest_run n seq own h.1.2 h.2]

/-- The four requests taken in every power state reach their own rules. -/
theorem rule_takeRequest_of_listens {n : RequestName} (seq : Byte) (own : State → State) {s : State}
    (hn : RequestName.alwaysAccepted n = true) (h : Listens s) :
    rule (takeRequest n seq own) s = .next (own s) := by
  rw [rule_of_powered _ h.1, takeRequest_always seq own hn h.2]

/-! ## Key slots -/

/-- Load success, where the extent is DEFINED (R61). -/
theorem loadKey_of_defined (k : SlotId) (key : LoadedKey) {e : ExtentId} {x : Extent} {s : State}
    (h : s.extents[e] = some x) :
    loadKey k e key s =
      setExtent e (some { x with key := .live k })
        (setSlot k
          { state := .ready e key, pins := 0, usage := 0, limit := x.policy.usageLimit
            stopAtLimit := x.policy.stopAtLimit, worn := false } s) := by
  simp only [loadKey, h]

theorem emptySlot?_none {s : State} :
    emptySlot? s = none ↔ ∀ k : SlotId, s.slots[k].state ≠ .empty := by
  simp [emptySlot?, List.find?_eq_none]

/-- The lowest EMPTY slot is the one found. -/
theorem emptySlot?_lowest {s : State} {k : SlotId} (h : s.slots[k].state = .empty)
    (below : ∀ i : SlotId, i < k → s.slots[i].state ≠ .empty) : emptySlot? s = some k := by
  unfold emptySlot?
  rw [List.find?_eq_some_iff_getElem]
  refine ⟨by simpa using h, k.val, by simp, by simp, fun j hj => ?_⟩
  have := below ⟨j, by omega⟩ (by exact hj)
  simpa using this

theorem releaseSlot_changes (k : SlotId) (s : State) :
    releaseSlot k s = { s with slots := (releaseSlot k s).slots } := by
  unfold releaseSlot
  split
  · split <;> rfl
  · rfl

/-- A release changes slots and the one extent, nothing else. -/
theorem releaseExtent_changes (c : ReleaseCause) (e : ExtentId) (s : State) :
    releaseExtent c e s =
      { s with slots := (releaseExtent c e s).slots, extents := (releaseExtent c e s).extents } := by
  unfold releaseExtent
  split
  · rfl
  · split
    · rw [releaseSlot_changes]; rfl
    · rfl
    · rfl

/-- The extent after a release: without a key, ERASED by ERASE, and otherwise as it was. -/
theorem releaseExtent_extents (c : ReleaseCause) {e : ExtentId} {x : Extent} {s : State}
    (h : s.extents[e] = some x) :
    (releaseExtent c e s).extents =
      s.extents.set e
        (some { x with key :=
          match c with
          | .erase => .erased
          | .forget => if x.key.isLive = true then .none else x.key }) := by
  have hs : s.extents.set e (some x) = s.extents := by
    rw [← h]; exact Vector.set_getElem_self ..
  unfold releaseExtent
  simp only [h]
  cases hk : x.key with
  | live k =>
    cases c <;> simp [ReleaseCause.statusAfter, KeyStatus.isLive] <;> rw [releaseSlot_changes]
  | none =>
    cases c
    · simp [KeyStatus.isLive]; rw [← hk]; exact hs.symm
    · simp
  | erased =>
    cases c
    · simp [KeyStatus.isLive]; rw [← hk]; exact hs.symm
    · simp

/-- The slots after a release of an extent whose LIVE slot is bound to it. -/
theorem releaseExtent_slots (c : ReleaseCause) {e : ExtentId} {x : Extent} {s : State}
    (h : s.extents[e] = some x) : (releaseExtent c e s).slots = releasedSlots x s := by
  unfold releaseExtent releasedSlots
  simp only [h]
  cases x.key with
  | live k =>
    simp only [setExtent_slots]
    unfold releaseSlot
    cases s.slots[k].state with
    | ready _ _ => split_ifs <;> rfl
    | empty => rfl
    | loading _ => rfl
    | draining _ => rfl
  | none => cases c <;> rfl
  | erased => cases c <;> rfl

/-! ## The link (R123, R124, R134) -/

/-- A transaction's attempt begins: only the Link Master changes. -/
theorem beginAttempt_eq (x : Transaction) (s : State) :
    beginAttempt x s = { s with link := attempting x s.link } := by
  unfold beginAttempt attempting
  rcases h : s.link.tracking <;> simp [setLinkMaster, h, Transaction.restarted] <;> cases x.kind <;> rfl

theorem startRead_eq (h : Handle) (s : State) :
    startRead h s = { s with link := askedRead h s.link } := by
  unfold startRead askedRead
  rw [beginAttempt_eq]
  rfl

theorem startWrite_eq (h : Handle) (r : KeyRecord) (s : State) :
    startWrite h r s = { s with link := askedWrite h r s.link } := by
  unfold startWrite askedWrite
  rw [beginAttempt_eq]
  rfl

/-- The Link Master rests without a transaction and without a write operation. -/
theorem clearTransaction_rests (st : LinkState) (s : State) :
    clearTransaction st none s =
      { s with link := rested st s.link.tracking s.link.releaseWatch s.link } := rfl

theorem linkFree_changes (s : State) : linkFree s = { s with link := (linkFree s).link } := by
  unfold linkFree
  simp only
  split
  · rw [beginAttempt_eq]; rfl
  · rfl
  · rfl

/-- What follows a complete element changes the Link Master alone. -/
theorem leaveElement_changes (x : Transaction) (p : LinkPoint) (s : State) :
    leaveElement x p s = { s with link := (leaveElement x p s).link } := by
  unfold leaveElement windDown
  split
  · simp only
    split <;> rfl
  · rfl

/-- A complete element changes the Link Master, and the counter where a free value is taken. -/
theorem completeElement_changes (x : Transaction) (p : LinkPoint) (s : State) :
    completeElement x p s =
      { s with draws := (completeElement x p s).draws, link := (completeElement x p s).link } := by
  unfold completeElement
  split
  · rw [leaveElement_changes]
  · split_ifs
    · rw [leaveElement_changes]
    · rw [leaveElement_changes]
    · rfl

theorem advanceLink_changes (s : State) :
    advanceLink s = { s with draws := (advanceLink s).draws, link := (advanceLink s).link } := by
  unfold advanceLink
  split
  · rfl
  · simp only
    split_ifs
    · rfl
    · rfl
    · rfl
    · exact completeElement_changes _ _ _

/-! ## The sector transform (R81) -/

/-- The transform keeps the length of its data. -/
theorem transform_length (size : KeySize) (key : KeyBlock) (w : Tweak) (d : Direction) (data : Bytes) :
    (transform size key w d data).length = data.length := by
  cases d <;> simp [transform]

/-- A function of sectors of every length gives the same on the same bytes. -/
theorem sectorwise_congr (f : (n : Nat) → Vector Byte n → Vector Byte n) {n : Nat} {v : Vector Byte n}
    {l : Bytes} (hv : v.toList = l) : (f l.length ⟨l.toArray, by simp⟩).toList = (f n v).toList := by
  have hn : l.length = n := by simp [← hv]
  subst hn
  have : (⟨l.toArray, by simp⟩ : Vector Byte l.length) = v := by
    apply Vector.toList_inj.1
    simp [hv]
  rw [this]

/-- For one key and tweak, deciphering restores what was enciphered. -/
theorem transform_inverse (size : KeySize) (key : KeyBlock) (w : Tweak) (data : Bytes) :
    transform size key w .decipher (transform size key w .encipher data) = data := by
  refine (sectorwise_congr (fun n => (Config.sectorCipher size key w n).symm)
    (v := Config.sectorCipher size key w data.length ⟨data.toArray, by simp⟩) rfl).trans ?_
  simp

/-- For one key and tweak, enciphering restores what was deciphered. -/
theorem transform_inverse_of_decipher (size : KeySize) (key : KeyBlock) (w : Tweak) (data : Bytes) :
    transform size key w .encipher (transform size key w .decipher data) = data := by
  refine (sectorwise_congr (fun n => Config.sectorCipher size key w n)
    (v := (Config.sectorCipher size key w data.length).symm ⟨data.toArray, by simp⟩) rfl).trans ?_
  simp

/-! ## The tick -/

theorem refclkPeriods_pos (p : TickPeriod) : 1 ≤ p.refclkPeriods := by
  cases p <;> decide

theorem countPeriod_of_lt {s : State} (h : s.divider + 1 < s.tickPeriod.refclkPeriods) :
    countPeriod s = { s with divider := s.divider + 1 } := by
  unfold countPeriod
  rw [if_pos h]

theorem countPeriod_of_last {s : State} (h : s.tickPeriod.refclkPeriods ≤ s.divider + 1) :
    countPeriod s = takeTick s := by
  unfold countPeriod
  rw [if_neg (by omega)]

/-- However the divider stands, TICK ends in the tick. -/
theorem reachPeriod_takes_the_tick (s : State) : reachPeriod s = takeTick s := by
  have := refclkPeriods_pos s.tickPeriod
  exact countPeriod_of_last (s := { s with divider := s.tickPeriod.refclkPeriods - 1 })
    (show s.tickPeriod.refclkPeriods ≤ s.tickPeriod.refclkPeriods - 1 + 1 by omega)

/-- Periods short of the tick period only count. -/
theorem countPeriod_iterate (n : Nat) (s : State) (h : s.divider + n < s.tickPeriod.refclkPeriods) :
    countPeriod^[n] s = { s with divider := s.divider + n } := by
  induction n generalizing s with
  | zero => rfl
  | succ n ih =>
    rw [Function.iterate_succ_apply, countPeriod_of_lt (by omega),
      ih _ (show s.divider + 1 + n < s.tickPeriod.refclkPeriods by omega)]
    show ({ s with divider := s.divider + 1 + n } : State) = _
    rw [show s.divider + 1 + n = s.divider + (n + 1) by omega]

end Sys2Proof.Machine
end

