-- ==== Sys2Proof/Laws/Jobs.lean ====
section
/-! SUPPORT. The Job Unit's shared operations: which fields they can change, said once as a relation that
composes (JobFrame), what they do to ATTN, and the closed form of a job's end while nothing is withheld. -/

namespace Sys2Proof.Machine

/-! ## What ending and closing jobs leaves alone -/

/-- The fields that no operation on jobs, buffers, pins and closers changes. -/
structure JobFrame (s t : State) : Prop where
  inbound : t.inbound = s.inbound
  stallOnFull : t.stallOnFull = s.stallOnFull
  namespaces : t.namespaces = s.namespaces
  extents : t.extents = s.extents
  pipes : t.pipes = s.pipes
  random : t.random = s.random
  link : t.link = s.link
  tickPeriod : t.tickPeriod = s.tickPeriod
  divider : t.divider = s.divider
  drainLimit : t.drainLimit = s.drainLimit
  power : t.power = s.power
  drainTimer : t.drainTimer = s.drainTimer
  powerGood : t.powerGood = s.powerGood
  resetN : t.resetN = s.resetN
  holdLevel : t.holdLevel = s.holdLevel
  draws : t.draws = s.draws
  outData : t.outData = s.outData
  pending : t.pending = s.pending

theorem JobFrame.refl (s : State) : JobFrame s s := by constructor <;> rfl

theorem JobFrame.trans {s t u : State} (h : JobFrame s t) (k : JobFrame t u) : JobFrame s u := by
  constructor
  · exact k.inbound.trans h.inbound
  · exact k.stallOnFull.trans h.stallOnFull
  · exact k.namespaces.trans h.namespaces
  · exact k.extents.trans h.extents
  · exact k.pipes.trans h.pipes
  · exact k.random.trans h.random
  · exact k.link.trans h.link
  · exact k.tickPeriod.trans h.tickPeriod
  · exact k.divider.trans h.divider
  · exact k.drainLimit.trans h.drainLimit
  · exact k.power.trans h.power
  · exact k.drainTimer.trans h.drainTimer
  · exact k.powerGood.trans h.powerGood
  · exact k.resetN.trans h.resetN
  · exact k.holdLevel.trans h.holdLevel
  · exact k.draws.trans h.draws
  · exact k.outData.trans h.outData
  · exact k.pending.trans h.pending

theorem JobFrame.powered {s t : State} (h : JobFrame s t) : t.powered = s.powered := by
  simp [State.powered, h.powerGood, h.resetN]

theorem JobFrame.of_setJob (t : TagId) (j : Option Job) (s : State) :
    JobFrame s (setJob t j s) := by
  constructor <;> rfl

theorem JobFrame.of_setBuffer (b : BufferId) (v : Buffer) (s : State) :
    JobFrame s (setBuffer b v s) := by constructor <;> rfl

theorem JobFrame.of_setSlot (k : SlotId) (v : Slot) (s : State) : JobFrame s (setSlot k v s) := by
  constructor <;> rfl

theorem JobFrame.of_setTimer (e : ExtentId) (v : IdleTimer) (s : State) :
    JobFrame s (setTimer e v s) := by constructor <;> rfl

theorem JobFrame.of_setFlag (f : Flag) (s : State) : JobFrame s (setFlag f s) := by
  constructor <;> rfl

theorem JobFrame.of_listSector (t : TagId) (d : Bytes) (g : Option SectorTag) (b : BufferId)
    (s : State) : JobFrame s (listSector t d g b s) := by
  unfold listSector
  split <;> constructor <;> rfl

theorem JobFrame.of_releaseBuffer (b : BufferId) (s : State) : JobFrame s (releaseBuffer b s) := by
  unfold releaseBuffer
  split
  · exact .of_setBuffer _ _ _
  · refine .trans ?_ (.of_listSector _ _ _ _ _)
    constructor <;> rfl

theorem JobFrame.of_releaseBuffers (bs : List BufferId) (s : State) :
    JobFrame s (releaseBuffers bs s) := by
  induction bs generalizing s with
  | nil => exact .refl s
  | cons b bs ih => exact (JobFrame.of_releaseBuffer b s).trans (ih _)

theorem JobFrame.of_endJob (t : TagId) (k : Nat) (why : EndReason) (s : State) :
    JobFrame s (endJob t k why s) := by
  unfold endJob
  split
  · exact .refl s
  · refine .trans ?_ (.of_releaseBuffers _ _)
    constructor <;> rfl

theorem JobFrame.of_stopJob (t : TagId) (k : Nat) (c : StopCondition) (s : State) :
    JobFrame s (stopJob t k c s) := by
  unfold stopJob
  split
  · exact .refl s
  · exact .of_endJob _ _ _ _
  · split
    · exact .of_endJob _ _ _ _
    · exact .refl s
  · exact .refl s

theorem JobFrame.of_cutJob (t : TagId) (r : CutReason) (s : State) : JobFrame s (cutJob t r s) := by
  unfold cutJob
  split
  · exact .refl s
  · split
    · exact .refl s
    · exact .of_endJob _ _ _ _

theorem JobFrame.of_emitCloser (c : Closer) (s : State) : JobFrame s (emitCloser c s) := by
  unfold emitCloser
  split <;> constructor <;> rfl

theorem JobFrame.of_answerErase (seq : Byte) (e : ExtentId) (w : WriteEnd) (s : State) :
    JobFrame s (answerErase seq e w s) := by
  unfold answerErase
  split <;> constructor <;> rfl

theorem JobFrame.of_drainEnded (k : SlotId) (s : State) : JobFrame s (drainEnded k s) := by
  unfold drainEnded
  split
  · split
    · split
      · exact .of_answerErase _ _ _ _
      · constructor <;> rfl
    · exact .refl s
  · exact .refl s

theorem JobFrame.of_unpin (k : SlotId) (s : State) : JobFrame s (unpin k s) := by
  unfold unpin
  simp only
  split
  · split
    · exact .trans (.of_setSlot _ _ _) (.of_drainEnded _ _)
    · exact .of_setSlot _ _ _
  · exact .of_setSlot _ _ _

theorem JobFrame.of_closeJob (t : TagId) (j : Job) (s : State) : JobFrame s (closeJob t j s) := by
  have h : JobFrame s (setJob t none (unpinJob j.mode (emitCloser (closerOf t j) s))) := by
    refine .trans (.of_emitCloser (closerOf t j) s) ?_
    refine .trans ?_ (.of_setJob t none (unpinJob j.mode (emitCloser (closerOf t j) s)))
    unfold unpinJob
    split
    · exact .of_unpin _ _
    · exact .refl _
  unfold closeJob
  simp only
  split
  · exact h.trans (.of_setTimer _ _ _)
  · exact h

theorem JobFrame.of_closeIfDone (t : TagId) (s : State) : JobFrame s (closeIfDone t s) := by
  unfold closeIfDone
  split
  · exact .refl s
  · split
    · exact .of_closeJob _ _ _
    · exact .refl s

theorem JobFrame.of_cutJobs (named : Job → Bool) (r : CutReason) (s : State) :
    JobFrame s (cutJobs named r s) := by
  unfold cutJobs
  generalize List.finRange 48 = ts
  induction ts generalizing s with
  | nil => exact .refl s
  | cons t ts ih =>
    refine .trans ?_ (ih _)
    beta_reduce
    split
    · exact .refl s
    · split
      · exact .trans (.of_cutJob _ _ _) (.of_closeIfDone _ _)
      · exact .refl s

theorem JobFrame.of_overrun (t : TagId) (s : State) : JobFrame s (overrun t s) := by
  unfold overrun
  split
  · exact .refl s
  · exact .trans (.of_setFlag _ _) (.trans (.of_stopJob _ _ _ _) (.of_closeIfDone _ _))

/-! ## ATTN -/

theorem listSector_attn (t : TagId) (d : Bytes) (g : Option SectorTag) (b : BufferId) {s : State}
    (h : AttnFollowsFlags s) : AttnFollowsFlags (listSector t d g b s) := by
  unfold listSector
  split <;> exact attnFollows_of_same h rfl rfl rfl rfl

theorem releaseBuffer_attn (b : BufferId) {s : State} (h : AttnFollowsFlags s) :
    AttnFollowsFlags (releaseBuffer b s) := by
  unfold releaseBuffer
  split
  · exact attnFollows_of_same h rfl rfl rfl rfl
  · exact listSector_attn _ _ _ _ (attnFollows_of_same h rfl rfl rfl rfl)

theorem releaseBuffers_attn (bs : List BufferId) {s : State} (h : AttnFollowsFlags s) :
    AttnFollowsFlags (releaseBuffers bs s) := by
  induction bs generalizing s with
  | nil => exact h
  | cons b bs ih => exact ih (releaseBuffer_attn b h)

theorem endJob_attn (t : TagId) (k : Nat) (why : EndReason) {s : State} (h : AttnFollowsFlags s) :
    AttnFollowsFlags (endJob t k why s) := by
  unfold endJob
  split
  · exact h
  · exact releaseBuffers_attn _ (attnFollows_of_same h rfl rfl rfl rfl)

theorem stopJob_attn (t : TagId) (k : Nat) (c : StopCondition) {s : State}
    (h : AttnFollowsFlags s) : AttnFollowsFlags (stopJob t k c s) := by
  unfold stopJob
  split
  · exact h
  · exact endJob_attn _ _ _ h
  · split
    · exact endJob_attn _ _ _ h
    · exact h
  · exact h

theorem cutJob_attn (t : TagId) (r : CutReason) {s : State} (h : AttnFollowsFlags s) :
    AttnFollowsFlags (cutJob t r s) := by
  unfold cutJob
  split
  · exact h
  · split
    · exact h
    · exact endJob_attn _ _ _ h

theorem emitCloser_attn (c : Closer) {s : State} (h : AttnFollowsFlags s) :
    AttnFollowsFlags (emitCloser c s) := by
  unfold emitCloser
  split
  · exact setFlag_follows _ _
  · exact attnFollows_of_same h rfl rfl rfl rfl

theorem answerErase_attn (seq : Byte) (e : ExtentId) (w : WriteEnd) {s : State}
    (h : AttnFollowsFlags s) : AttnFollowsFlags (answerErase seq e w s) := by
  unfold answerErase
  split <;> exact attnFollows_of_same h rfl rfl rfl rfl

theorem drainEnded_attn (k : SlotId) {s : State} (h : AttnFollowsFlags s) :
    AttnFollowsFlags (drainEnded k s) := by
  unfold drainEnded
  split
  · split
    · split
      · exact answerErase_attn _ _ _ h
      · exact attnFollows_of_same h rfl rfl rfl rfl
    · exact h
  · exact h

theorem unpin_attn (k : SlotId) {s : State} (h : AttnFollowsFlags s) :
    AttnFollowsFlags (unpin k s) := by
  unfold unpin
  simp only
  split
  · split
    · exact drainEnded_attn _ (attnFollows_of_same h rfl rfl rfl rfl)
    · exact attnFollows_of_same h rfl rfl rfl rfl
  · exact attnFollows_of_same h rfl rfl rfl rfl

theorem closeJob_attn (t : TagId) (j : Job) {s : State} (h : AttnFollowsFlags s) :
    AttnFollowsFlags (closeJob t j s) := by
  have h1 : AttnFollowsFlags (unpinJob j.mode (emitCloser (closerOf t j) s)) := by
    unfold unpinJob
    split
    · exact unpin_attn _ (emitCloser_attn _ h)
    · exact emitCloser_attn _ h
  have h2 : AttnFollowsFlags (setJob t none (unpinJob j.mode (emitCloser (closerOf t j) s))) :=
    attnFollows_of_same h1 rfl rfl rfl rfl
  unfold closeJob
  simp only
  split
  · exact attnFollows_of_same h2 rfl rfl rfl rfl
  · exact h2

theorem closeIfDone_attn (t : TagId) {s : State} (h : AttnFollowsFlags s) :
    AttnFollowsFlags (closeIfDone t s) := by
  unfold closeIfDone
  split
  · exact h
  · split
    · exact closeJob_attn _ _ h
    · exact h

theorem cutJobs_attn (named : Job → Bool) (r : CutReason) {s : State} (h : AttnFollowsFlags s) :
    AttnFollowsFlags (cutJobs named r s) := by
  unfold cutJobs
  generalize List.finRange 48 = ts
  induction ts generalizing s with
  | nil => exact h
  | cons t ts ih =>
    refine ih ?_
    beta_reduce
    split
    · exact h
    · split
      · exact closeIfDone_attn _ (cutJob_attn _ _ h)
      · exact h

theorem overrun_attn (t : TagId) {s : State} (h : AttnFollowsFlags s) :
    AttnFollowsFlags (overrun t s) := by
  unfold overrun
  split
  · exact h
  · exact closeIfDone_attn _ (stopJob_attn _ _ _ (setFlag_follows _ _))

/-! ## Ends while nothing is withheld -/

theorem releaseBuffer_of_none (b : BufferId) {s : State} (h : s.withheld = none) :
    releaseBuffer b s = setBuffer b Buffer.empty s := by
  simp [releaseBuffer, h]

/-- Buffers that become FREE while nothing is withheld. -/
theorem releaseBuffers_of_none (bs : List BufferId) {s : State} (h : s.withheld = none) :
    releaseBuffers bs s =
      { s with buffers := Vector.ofFn fun b => if b ∈ bs then Buffer.empty else s.buffers[b] } := by
  induction bs generalizing s with
  | nil => simp [releaseBuffers]
  | cons b bs ih =>
    have hs : (setBuffer b Buffer.empty s).withheld = none := h
    have hb : (Vector.ofFn fun c : BufferId =>
          if c ∈ bs then Buffer.empty else (setBuffer b Buffer.empty s).buffers[c]) =
        Vector.ofFn fun c : BufferId => if c ∈ b :: bs then Buffer.empty else s.buffers[c] := by
      ext i hi
      rw [Vector.getElem_ofFn, Vector.getElem_ofFn]
      simp only [List.mem_cons, Fin.getElem_fin, setBuffer_buffers, Vector.getElem_set, Fin.ext_iff]
      by_cases h1 : (⟨i, hi⟩ : BufferId) ∈ bs
      · simp [h1]
      · by_cases h2 : b.val = i
        · simp [h1, h2]
        · simp [h1, h2, Ne.symm h2]
    show releaseBuffers bs (releaseBuffer b s) = _
    rw [releaseBuffer_of_none b h, ih hs, hb]
    rfl

/-- A job that becomes ENDING while nothing is withheld. -/
theorem endJob_of_none {t : TagId} {j : Job} (k : Nat) (why : EndReason) {s : State}
    (hj : s.jobs[t] = some j) (h : s.withheld = none) :
    endJob t k why s = endedAt t j k why s := by
  have hd : discardWithheld t s.withheld = none := by rw [h]; rfl
  have hb : (Vector.ofFn fun b : BufferId =>
        if b ∈ (s.ready.filter (ReadyEntry.dropped t k)).map ReadyEntry.buffer ++
            (j.hold.filter fun h => decide (k ≤ h.index)).map HeldResult.buffer
        then Buffer.empty else s.buffers[b]) = (endedAt t j k why s).buffers := by
    ext i hi
    simp only [endedAt]
    rw [Vector.getElem_ofFn, Vector.getElem_ofFn]
    refine if_congr ?_ rfl rfl
    simp only [List.mem_append, List.mem_map, List.mem_filter, ReadyEntry.dropped, Bool.or_eq_true,
      List.any_eq_true, Bool.and_eq_true, decide_eq_true_eq, and_assoc]
  simp only [endJob, hj]
  rw [releaseBuffers_of_none _ (by exact hd)]
  refine (congrArg (fun v : Vector Buffer 96 =>
    { s with
      jobs := s.jobs.set t
        (some { j with state := .ending k why, hold := j.hold.filter fun h => decide (h.index < k) })
      ready := s.ready.filter fun r => !ReadyEntry.dropped t k r
      withheld := discardWithheld t s.withheld
      buffers := v }) hb).trans ?_
  simp only [endedAt, h, discardWithheld]
  rfl

/-- A job that is not finished is not closed. -/
theorem closeIfDone_of_unfinished {t : TagId} {j : Job} {s : State} (hj : s.jobs[t] = some j)
    (h : j.finished = false) : closeIfDone t s = s := by
  simp only [closeIfDone, hj, h]
  rfl

theorem closeIfDone_of_free {t : TagId} {s : State} (hj : s.jobs[t] = none) :
    closeIfDone t s = s := by
  simp only [closeIfDone, hj]

/-- An ACTIVE job that a condition stops while nothing is withheld. -/
theorem stopJob_of_active {t : TagId} {j : Job} (k : Nat) (c : StopCondition) {s : State}
    (hj : s.jobs[t] = some j) (ha : j.state = .active) (hw : s.withheld = none) :
    stopJob t k c s = endedAt t j k (.stop c) s := by
  simp only [stopJob, hj, Option.map, ha]
  exact endJob_of_none _ _ hj hw

/-- A buffer that becomes FREE, in its two forms. -/
theorem releaseBuffer_eq_freed (b : BufferId) (s : State) : releaseBuffer b s = freed b s := by
  rcases Option.eq_none_or_eq_some s.withheld with hw | ⟨w, hw⟩
  · simp only [releaseBuffer, freed, hw, setBuffer, Buffer.empty]
  · rcases Option.eq_none_or_eq_some s.jobs[w.tag] with hj | ⟨j, hj⟩ <;>
      simp only [releaseBuffer, freed, listSector, hw, hj, setBuffer, setJob, Buffer.empty]

/-- A buffer that becomes FREE leaves nothing withheld. -/
theorem freed_withheld (b : BufferId) (s : State) : (freed b s).withheld = none := by
  unfold freed
  simp only
  split
  · assumption
  · split <;> rfl

/-- A buffer that becomes FREE changes of a job at most what it is next to receive. -/
theorem freed_job (b : BufferId) {t : TagId} {j : Job} {s : State} (h : s.jobs[t] = some j) :
    ∃ n, (freed b s).jobs[t] = some { j with nextToReceive := n } := by
  rcases Option.eq_none_or_eq_some s.withheld with hw | ⟨w, hw⟩
  · exact ⟨j.nextToReceive, by simp only [freed, hw]; exact h⟩
  · rcases Option.eq_none_or_eq_some s.jobs[w.tag] with hv | ⟨v, hv⟩
    · exact ⟨j.nextToReceive, by simp only [freed, hw, hv]; exact h⟩
    · by_cases he : w.tag = t
      · subst he
        rw [h] at hv
        cases hv
        exact ⟨j.nextToReceive + 1, by simp only [freed, hw, h]; simp⟩
      · have : w.tag.val ≠ t.val := fun e => he (Fin.ext e)
        exact ⟨j.nextToReceive, by simp only [freed, hw, hv]; simpa [this] using h⟩

/-! ## Closing (R20, R21) -/

/-- What Job.finished tests. -/
theorem finished_iff (j : Job) : j.finished = true ↔ emittedAll j := by
  unfold Job.finished emittedAll
  cases j.state <;> simp

/-- Removing a record lowers the count of the records that name its extent by one. -/
theorem jobsNaming_removed {t : TagId} {j : Job} {s u : State} (hj : s.jobs[t] = some j)
    (hu : u.jobs = s.jobs.set t none) : jobsNaming j.extent u + 1 = jobsNaming j.extent s := by
  have key : ∀ ts : List TagId, ts.Nodup →
      ts.countP (fun i => namesExtent j.extent u.jobs[i]) + (if t ∈ ts then 1 else 0) =
        ts.countP (fun i => namesExtent j.extent s.jobs[i]) := by
    intro ts hts
    induction ts with
    | nil => simp
    | cons i ts ih =>
      have ih := ih (List.nodup_cons.1 hts).2
      have hi := (List.nodup_cons.1 hts).1
      simp only [List.countP_cons, List.mem_cons]
      by_cases h : t = i
      · subst h
        simp only [hi, if_false, Nat.add_zero] at ih
        have h1 : namesExtent j.extent u.jobs[t] = false := by simp [hu, namesExtent]
        have h2 : namesExtent j.extent s.jobs[t] = true := by simp [hj, namesExtent]
        rw [h1, h2, ih]
        simp
      · have h1 : u.jobs[i] = s.jobs[i] := by
          have : t.val ≠ i.val := fun e => h (Fin.ext e)
          simp [hu, this]
        simp only [h1, h, false_or]
        omega
  have := key (List.finRange 48) (List.nodup_finRange 48)
  simpa [jobsNaming] using this

/-- The Closer of a job whose extent is DEFINED. -/
theorem emitCloser_eq {c : Closer} {e : ExtentId} {x : Extent} {s : State} (he : c.extent = some e)
    (hx : s.extents[e] = some x) : emitCloser c s = closerSent c x s := by
  unfold emitCloser closerSent
  have hr : reports c.extent s = x.policy.reportConditions := by simp only [he, reports, hx]
  rw [hr]
  rcases hc : c.cause with _ | ⟨_ | _⟩ <;> cases hp : x.policy.reportConditions <;>
    simp [CloserCause.isCondition, emitControl, sent]

theorem closerOf_extent (t : TagId) (j : Job) : (closerOf t j).extent = some j.extent := by
  unfold closerOf
  cases j.state with
  | active => cases j.mode <;> rfl
  | ending k why => cases why <;> rfl

theorem drainEnded_jobs (k : SlotId) (s : State) : (drainEnded k s).jobs = s.jobs := by
  unfold drainEnded
  split
  · split
    · split
      · unfold answerErase; split <;> rfl
      · rfl
    · rfl
  · rfl

/-- The last pin of a DRAINING slot is released: its drain ends. -/
theorem unpin_of_lastPin {k : SlotId} {key : LoadedKey} {s : State}
    (h : s.slots[k].state = .draining key) (hp : s.slots[k].pins ≤ 1) :
    unpin k s = drainEnded k { s with slots := s.slots.set k (unpinnedSlot s.slots[k]) } := by
  have h0 : s.slots[k].pins - 1 = 0 := by omega
  simp only [unpin, unpinnedSlot, h, hp, h0, if_true]
  rfl

/-- Any other pin is released. -/
theorem unpin_of_other {k : SlotId} {s : State}
    (h : ∀ key, s.slots[k].state = .draining key → 1 < s.slots[k].pins) :
    unpin k s = { s with slots := s.slots.set k (unpinnedSlot s.slots[k]) } := by
  rcases hs : s.slots[k].state with _ | e | ⟨e, key⟩ | key
  · simp only [unpin, unpinnedSlot, hs]
    rfl
  · simp only [unpin, unpinnedSlot, hs]
    rfl
  · simp only [unpin, unpinnedSlot, hs]
    rfl
  · have h1 := h key hs
    have h0 : ¬s.slots[k].pins - 1 = 0 := by omega
    have h2 : ¬s.slots[k].pins ≤ 1 := by omega
    simp only [unpin, unpinnedSlot, hs, h0, h2, if_false]
    rfl

theorem pins_of_noDrain {j : Job} {k : SlotId} {s : State} (h : drainOf j s = none)
    (hm : j.mode = .cipher k) (key : LoadedKey) (hk : s.slots[k].state = .draining key) :
    1 < s.slots[k].pins := by
  refine Nat.lt_of_not_le fun hp => ?_
  simp only [drainOf, hm, hk, hp, if_true] at h
  contradiction

theorem drainOf_some {j : Job} {k : SlotId} {s : State} (h : drainOf j s = some k) :
    j.mode = .cipher k ∧ ∃ key, s.slots[k].state = .draining key ∧ s.slots[k].pins ≤ 1 := by
  unfold drainOf at h
  split at h
  · contradiction
  · rename_i k' hm
    split at h
    · rename_i key hk
      split at h
      · rename_i hp
        cases h
        exact ⟨hm, key, hk, hp⟩
      · contradiction
    · contradiction

/-- The slots after a job's pin is released. -/
def slotsUnpinned (m : JobMode) (s : State) : Vector Slot 32 :=
  match m with
  | .cipher k => s.slots.set k (unpinnedSlot s.slots[k])
  | .fill _ => s.slots

theorem unpinJob_of_noDrain {j : Job} {s : State} (hd : drainOf j s = none) :
    unpinJob j.mode s = { s with slots := slotsUnpinned j.mode s } := by
  have hn := fun k hm => unpin_of_other (k := k) (s := s) (pins_of_noDrain hd hm)
  cases hm : j.mode with
  | cipher k => exact hn k hm
  | fill c => rfl

/-- A Closer leaves a job's part with its flags and messages changed only. -/
theorem closerSent_changes (c : Closer) (x : Extent) (s : State) :
    closerSent c x s =
      { s with flags := (closerSent c x s).flags, attn := (closerSent c x s).attn
               outControl := (closerSent c x s).outControl } := by
  unfold closerSent
  split <;> rfl

/-- The end of a closing job, from the state in which its pin is released. -/
theorem closeJob_timers {t : TagId} {j : Job} {x : Extent} {s w : State} (hj : s.jobs[t] = some j)
    (hx : s.extents[j.extent] = some x) (h1 : w.jobs = s.jobs) (h2 : w.extents = s.extents)
    (h3 : w.timers = s.timers) :
    (let u := setJob t none w
     if jobsNaming j.extent u = 0 then judgeTimer true j.extent u else u) =
      { w with
        jobs := s.jobs.set t none
        timers :=
          if jobsNaming j.extent s = 1 then s.timers.set j.extent (freshTimer x 0) else s.timers } := by
  have hcount := jobsNaming_removed (u := setJob t none w) hj (by rw [← h1]; rfl)
  have hxu : (setJob t none w).extents[j.extent] = some x := by
    show w.extents[j.extent] = _
    rw [h2]; exact hx
  simp only
  by_cases h0 : jobsNaming j.extent (setJob t none w) = 0
  · have : jobsNaming j.extent s = 1 := by omega
    rw [if_pos h0, if_pos this, judgeTimer_restart hxu, h0, ← h1, ← h3]
    rfl
  · have : jobsNaming j.extent s ≠ 1 := by omega
    rw [if_neg h0, if_neg this, ← h1, ← h3]
    rfl

/-- A job closes, and no drain ends with it. -/
theorem closeJob_of_noDrain {t : TagId} {j : Job} {x : Extent} {s : State} (hj : s.jobs[t] = some j)
    (hx : s.extents[j.extent] = some x) (hd : drainOf j s = none) :
    closeJob t j s = closedWith (closerOf t j) t j x s := by
  have hd' : drainOf j (closerSent (closerOf t j) x s) = none := by
    rw [closerSent_changes]; exact hd
  unfold closeJob
  rw [emitCloser_eq (closerOf_extent t j) hx, unpinJob_of_noDrain hd',
    closeJob_timers hj hx (by rw [closerSent_changes]) (by rw [closerSent_changes])
      (by rw [closerSent_changes])]
  unfold closedWith slotsUnpinned
  have hs : (closerSent (closerOf t j) x s).slots = s.slots := by rw [closerSent_changes]
  cases j.mode <;> simp only [hs]

/-- A job closes, and the drain that its slot's last pin held up ends. -/
theorem closeJob_of_drain {t : TagId} {j : Job} {x : Extent} {k : SlotId} {s : State}
    (hj : s.jobs[t] = some j) (hx : s.extents[j.extent] = some x) (hd : drainOf j s = some k) :
    closeJob t j s =
      { drainEnded k
          { closerSent (closerOf t j) x s with slots := s.slots.set k (unpinnedSlot s.slots[k]) } with
        jobs := (closedWith (closerOf t j) t j x s).jobs
        timers := (closedWith (closerOf t j) t j x s).timers } := by
  obtain ⟨hm, key, hk, hp⟩ := drainOf_some hd
  have hs : (closerSent (closerOf t j) x s).slots = s.slots := by rw [closerSent_changes]
  have he : ∀ w, (drainEnded k w).extents = w.extents := fun w => (JobFrame.of_drainEnded k w).extents
  have ht : ∀ w, (drainEnded k w).timers = w.timers := by
    intro w
    unfold drainEnded
    split
    · split
      · split
        · unfold answerErase; split <;> rfl
        · rfl
      · rfl
    · rfl
  unfold closeJob
  rw [emitCloser_eq (closerOf_extent t j) hx]
  simp only [hm, unpinJob]
  rw [unpin_of_lastPin (key := key) (by rw [hs]; exact hk) (by rw [hs]; exact hp),
    closeJob_timers hj hx (by rw [drainEnded_jobs, closerSent_changes])
      (by rw [he, closerSent_changes]) (by rw [ht, closerSent_changes]), hs]
  rfl

/-- A job of which something is left is not closed. -/
theorem closeIfDone_of_left {t : TagId} {j : Job} {s : State} (hj : s.jobs[t] = some j)
    (h : ¬emittedAll j) : closeIfDone t s = s :=
  closeIfDone_of_unfinished hj (by rw [← finished_iff] at h; simpa using h)

/-- A job of which nothing is left closes. -/
theorem closeIfDone_of_done {t : TagId} {j : Job} {s : State} (hj : s.jobs[t] = some j)
    (h : emittedAll j) : closeIfDone t s = closeJob t j s := by
  have := (finished_iff j).2 h
  simp only [closeIfDone, hj, this, if_true]

/-- A drain that no request waits for ends without more. -/
theorem drainEnded_of_unawaited {k : SlotId} {s : State}
    (h : ∀ seq e w, s.executing ≠ some { seq := seq, request := .erase e (some k) w }) :
    drainEnded k s = s := by
  unfold drainEnded
  split
  · rename_i seq e d w hex
    split
    · rename_i hd
      exact absurd (hd ▸ hex) (h seq e w)
    · rfl
  · rfl

/-- A drain that an ERASE waits for, whose write has ended, answers it. -/
theorem drainEnded_of_written {k : SlotId} {seq : Byte} {e : ExtentId} {w : WriteEnd} {y : Extent}
    {s : State} (h : s.executing = some { seq := seq, request := .erase e (some k) (some w) })
    (hy : s.extents[e] = some y) :
    drainEnded k s =
      (let stale := item1 0x57 (boolCode y.storeStale)
       let phase := item1 0x60 w.facts.phase.code
       match w.outcome with
       | .verified => ended .erase seq .ok [item1 0x51 y.key.code, stale, phase] s
       | .differs => ended .erase seq .storeNotVoided [stale, phase, item1 0x61 0x48] s
       | .failed f => ended .erase seq .storeNotVoided [stale, phase, item1 0x61 f.result.code] s) := by
  have e1 : keyStatusItem e s = item1 0x51 y.key.code := by simp only [keyStatusItem, hy]; rfl
  have e2 : staleItem e s = item1 0x57 (boolCode y.storeStale) := by
    simp only [staleItem, hy]; rfl
  unfold drainEnded
  rw [h]
  simp only [if_true, answerErase, e1, e2]
  cases w.outcome <;> rfl

/-! ## Passes -/

theorem countUse_eq (k : SlotId) (s : State) : countUse k s = countedUse k s := rfl

/-- A counted pass changes its slot, and the flags where the slot becomes worn. -/
theorem countUse_changes (k : SlotId) (s : State) :
    countUse k s =
      { s with slots := (countUse k s).slots, flags := (countUse k s).flags
               attn := (countUse k s).attn } := by
  unfold countUse
  simp only
  split <;> rfl

theorem countUse_attn (k : SlotId) {s : State} (h : AttnFollowsFlags s) :
    AttnFollowsFlags (countUse k s) := by
  unfold countUse
  simp only
  split
  · exact setFlag_follows _ _
  · exact attnFollows_of_same h rfl rfl rfl rfl

/-! ## The locking step (R162) -/

/-- Locking one extent for hold changes extents, slots and timers. -/
theorem lockForHold_changes (e : ExtentId) (s : State) :
    lockForHold e s =
      { s with extents := (lockForHold e s).extents, slots := (lockForHold e s).slots
               timers := (lockForHold e s).timers } := by
  unfold lockForHold
  split
  · rfl
  · split
    · rw [judgeTimer_changes, releaseExtent_changes]
      rfl
    · rfl

/-- An extent is locked for hold by its own turn only. -/
theorem lockForHold_extents (e : ExtentId) (s : State) :
    (lockForHold e s).extents =
      s.extents.set e
        (s.extents[e].map fun x =>
          if x.policy.lockOnHold then
            { x with readLock := true, writeLock := true
                     key := if x.key.isLive = true then .none else x.key }
          else x) := by
  have same : s.extents.set e s.extents[e] = s.extents := Vector.set_getElem_self ..
  unfold lockForHold
  rcases h : s.extents[e] with _ | x
  · rw [← h]
    simpa [h] using same.symm
  · simp only [Option.map]
    by_cases hl : x.policy.lockOnHold = true
    · simp only [hl, if_true]
      show (releaseExtent .forget e _).extents = _
      rw [releaseExtent_extents .forget (x := { x with readLock := true, writeLock := true }) (by simp)]
      simp
    · simp only [hl, if_false, Bool.false_eq_true]
      rw [← h]
      exact same.symm

/-- A release of one slot leaves the others. -/
theorem releaseSlot_other {n k : SlotId} (hv : n ≠ k) (s : State) :
    (releaseSlot n s).slots[k] = s.slots[k] := by
  have hv : n.val ≠ k.val := fun e => hv (Fin.ext e)
  unfold releaseSlot
  split
  · split <;> simp [emptySlot, setSlot, hv]
  · rfl

/-- A slot that a locked extent does not name stays. -/
theorem lockForHold_slots_of_unnamed (e : ExtentId) (k : SlotId) (s : State)
    (h : ∀ x, s.extents[e] = some x → x.policy.lockOnHold = true → x.key ≠ .live k) :
    (lockForHold e s).slots[k] = s.slots[k] := by
  unfold lockForHold
  split
  · rfl
  · rename_i x hx
    split
    · rename_i hl
      have hne := h x hx hl
      rw [judgeTimer_changes]
      show (releaseExtent .forget e _).slots[k] = _
      unfold releaseExtent
      split
      · rfl
      · rename_i y hy
        have hy : y = { x with readLock := true, writeLock := true } := by
          simpa [setExtent] using hy.symm
        subst hy
        split
        · rename_i n hk
          exact releaseSlot_other (fun e' => hne (by rw [← e']; exact hk)) _
        · rfl
        · rfl
    · rfl

/-- An extent with lock on hold that names a slot after another's turn named it before. -/
theorem lockForHold_live (e e' : ExtentId) (s : State) (x' : Extent) (h :
    (lockForHold e s).extents[e'] = some x')
    (hl : x'.policy.lockOnHold = true) (k : SlotId) (hk : x'.key = .live k) :
    ∃ x, s.extents[e'] = some x ∧ x.policy.lockOnHold = true ∧ x.key = .live k := by
  rw [lockForHold_extents] at h
  by_cases he : e = e'
  · subst he
    rw [show ∀ v : Option Extent, (s.extents.set e v)[e] = v from fun v => by simp] at h
    rcases hx : s.extents[e] with _ | x
    · rw [hx] at h; contradiction
    · rw [hx] at h
      simp only [Option.map] at h
      split at h
      · rename_i hl'
        refine ⟨x, rfl, hl', ?_⟩
        cases h
        simp only at hk
        split at hk
        · contradiction
        · exact hk
      · rename_i hl'
        cases h
        exact absurd hl hl'
  · have : e.val ≠ e'.val := fun h => he (Fin.ext h)
    rw [show ∀ v : Option Extent, (s.extents.set e v)[e'] = s.extents[e'] from fun v => by simp [this]] at h
    exact ⟨x', h, hl, hk⟩

theorem lockingStep_power (s : State) :
    (lockingStep s).power = if s.holdLevel then .hold else .run := by
  have h : ∀ (es : List ExtentId) (t : State),
      (es.foldl (fun s e => lockForHold e s) t).holdLevel = t.holdLevel := by
    intro es
    induction es with
    | nil => intro t; rfl
    | cons e es ih =>
      intro t
      refine (ih _).trans ?_
      beta_reduce
      rw [lockForHold_changes]
  simp only [lockingStep, h]

theorem lockingStep_attn {s : State} (h : AttnFollowsFlags s) :
    AttnFollowsFlags (lockingStep s) := by
  have hf : ∀ (es : List ExtentId) (t : State), AttnFollowsFlags t →
      AttnFollowsFlags (es.foldl (fun s e => lockForHold e s) t) := by
    intro es
    induction es with
    | nil => intro t ht; exact ht
    | cons e es ih =>
      intro t ht
      refine ih _ ?_
      beta_reduce
      rw [lockForHold_changes]
      exact attnFollows_of_same ht rfl rfl rfl rfl
  have hl := hf (List.finRange 24) s h
  unfold lockingStep
  simp only
  generalize (List.finRange 24).foldl (fun s e => lockForHold e s) s = u at hl ⊢
  exact attnFollows_of_same hl rfl rfl rfl rfl

theorem lockingStepIfDue_attn {s : State} (h : AttnFollowsFlags s) :
    AttnFollowsFlags (lockingStepIfDue s) := by
  unfold lockingStepIfDue
  split
  · exact lockingStep_attn h
  · exact h

end Sys2Proof.Machine
end

