-- ==== Sys2Proof/Laws/Link.lean ====
section
/-! SUPPORT. How a transaction's end reaches the request that asked for it: with a LINK failure code (failsBy), and
ABANDONED. -/

namespace Sys2Proof.Machine

/-! ## Time on the link (R121, R125, R126, R135) -/

/-- The steps of a byte: two for each bit, and two for the acknowledge bit. -/
theorem byteLines_steps (bits : Fin 8 → Drive) (acknowledge : Drive) :
    (byteLines bits acknowledge).length = 18 ∧
      ((byteLines bits acknowledge)[16]? = some { kscl := .low, ksda := acknowledge } ∧
        (byteLines bits acknowledge)[17]? = some { kscl := .released, ksda := acknowledge }) ∧
      ∀ i : Fin 8,
        (byteLines bits acknowledge)[2 * i.val]? = some { kscl := .low, ksda := bits i } ∧
          (byteLines bits acknowledge)[2 * i.val + 1]? =
            some { kscl := .released, ksda := bits i } := by
  refine ⟨rfl, ⟨rfl, rfl⟩, fun i => ?_⟩
  fin_cases i <;> exact ⟨rfl, rfl⟩

/-- Two elements that follow each other in a transaction without a failure: the first is found at its place, it is
no stop, and the second is the one that follows. -/
theorem elementsOf_consecutive {kind : TransactionKind} {i : Nat} {p q : LinkPoint}
    (hp : (elementsOf kind)[i]? = some p) (hq : (elementsOf kind)[i + 1]? = some q) :
    elementAt (placeOf p).1 (placeOf p).2 = p ∧ nextElement kind p = q ∧ q ≠ .openingStart ∧
      (placeOf p).1.holdsLink = true ∧ (placeOf p).1 ≠ .stop := by
  have all : ∀ (k : TransactionKind) (i : Fin 106), ∀ p ∈ (elementsOf k)[i.val]?,
      ∀ q ∈ (elementsOf k)[i.val + 1]?,
        elementAt (placeOf p).1 (placeOf p).2 = p ∧ nextElement k p = q ∧ q ≠ .openingStart ∧
          (placeOf p).1.holdsLink = true ∧ (placeOf p).1 ≠ .stop := by
    intro k
    cases k <;> decide +kernel
  have hi : i < 106 := by
    have h1 : i + 1 < (elementsOf kind).length := (List.getElem?_eq_some_iff.1 hq).1
    have h2 : (elementsOf kind).length ≤ 106 := by cases kind <;> decide
    omega
  exact all kind ⟨i, hi⟩ p hp q hq

/-- The last step of an element that is no stop completes it. -/
theorem advanceLink_of_lastStep {s : State} {x : Transaction} (hx : s.link.transaction = some x)
    (hl : s.link.state.holdsLink = true) (hs : s.link.state ≠ .stop)
    (hn : (elementLines s.link x (currentElement s.link x)).length ≤ x.phase + 1) :
    advanceLink s = completeElement x (currentElement s.link x) s := by
  unfold advanceLink
  simp only [hx, hl, if_neg (Nat.not_lt.2 hn), if_neg hs]
  rfl

/-! ## Ends with a LINK failure code (R134) -/


/-- A transaction that gets to an element. -/
theorem metAt_eq (p : LinkPoint) (x : Transaction) : begunBy x p = metAt p x := rfl

/-- The facts a transaction's end reports. -/
theorem absorbed_facts (x : Transaction) (o : WriteOperation) :
    (absorb x o).toWriteFacts = factsReached x (some o) := by
  unfold absorb factsReached
  cases x.kind <;> simp

/-- A transaction that ends with a LINK failure code, and what it means for the request that asked for it. -/
theorem endTransaction_failed (x : Transaction) (f : LinkFailure) (st : LinkState) (s : State) :
    endTransaction x (.failed f) st s =
      match s.link.operation with
      | none =>
        readEnded x.handle (.error f)
          (setFlag .linkFail { s with link := rested st s.link.tracking s.link.releaseWatch s.link })
      | some o =>
        writeEnded { outcome := .failed f, facts := factsReached x (some o) }
          (setFlag .linkFail { s with link := rested st s.link.tracking s.link.releaseWatch s.link }) := by
  unfold endTransaction
  rcases h : s.link.operation with _ | o
  · simp only [Option.map]; rfl
  · simp only [Option.map, absorbed_facts]; rfl

/-- Of a failed transaction, its end keeps the handle and the write facts alone. -/
theorem endTransaction_failed_congr {x y : Transaction} (f : LinkFailure) (st : LinkState)
    (s : State) (hh : x.handle = y.handle) (hf : ∀ o, factsReached x (some o) = factsReached y (some o)) :
    endTransaction x (.failed f) st s = endTransaction y (.failed f) st s := by
  rw [endTransaction_failed, endTransaction_failed, hh]
  simp only [hf]

/-- The request of a transaction that has failed has ended, or waits for its drain. -/
def afterFailure (f : LinkEnd) (s : State) : State :=
  match s.link.operation with
  | none => readEnded f.transaction.handle (.error f.code) (linkFailed f s)
  | some o =>
    writeEnded { outcome := .failed f.code, facts := factsReached f.transaction (some o) } (linkFailed f s)

/-- A counted try leaves the power state. -/
theorem countTry_power (e) (u : State) : (countTry e u).power = u.power := by
  unfold countTry
  split
  · rfl
  · simp only; split <;> rfl

/-- A load leaves the power state. -/
theorem loadKey_power (n e k) (u : State) : (loadKey n e k u).power = u.power := by
  unfold loadKey
  split <;> rfl

/-- So does a slot that is given back. -/
theorem freeAllocated_power (k) (u : State) : (freeAllocated k u).power = u.power := by
  cases k <;> rfl

/-- The end of an UNLOCK leaves the power state. -/
theorem unlockEnd_power (seq e d slot v) (s : State) :
    (unlockEnd seq e d slot v s).power = s.power := by
  cases v with
  | sound k =>
    cases slot with
    | none => rfl
    | some n => exact loadKey_power n e k s
  | badCredential => exact (countTry_power e _).trans (freeAllocated_power _ _)
  | keyVoid => exact freeAllocated_power _ _
  | recordBad => exact freeAllocated_power _ _
  | link f => exact freeAllocated_power _ _

/-- The proof of a REWRAP leaves the power state. -/
theorem rewrapProof_power (seq e h old new read) (s : State) :
    (rewrapProof seq e h old new read s).power = s.power := by
  unfold rewrapProof
  split
  · simp only
    split
    · unfold rewrapWrite
      simp only [startWrite_eq]
      rfl
    · rfl
  · exact countTry_power e s
  · rfl

/-- The end of a READ RECORD that is no read-back leaves the power state. -/
theorem readEnded_power (h : Handle) (r) (s : State) :
    (readEnded h r s).power = s.power := by
  unfold readEnded
  split
  · split
    · exact unlockEnd_power _ _ _ _ _ _
    · rfl
  · split
    · exact rewrapProof_power _ _ _ _ _ _ _
    · rfl
  · rfl

/-- Settling store stale leaves the power state. -/
theorem settleStale_power (e b) (u : State) : (settleStale e b u).power = u.power := by
  cases b <;> rfl

/-- The answer of an ERASE leaves the power state. -/
theorem answerErase_power (seq e w) (u : State) : (answerErase seq e w u).power = u.power := by
  unfold answerErase
  cases w.outcome <;> rfl

/-- The end of a request leaves the power state. -/
theorem endRequest_power (n q r it) (s : State) : (endRequest n q r it s).power = s.power := rfl

/-- The load of a GENERATE leaves the power state. -/
theorem generateLoad_power (e d slot k) (s : State) :
    (generateLoad e d slot k s).power = s.power := by
  have : (generateLoad e d slot k s).power = (loadKey slot e k s).power := rfl
  rw [this, loadKey_power]

/-- The end of a write operation leaves the power state. -/
theorem writeEnded_power (w : WriteEnd) (s : State) : (writeEnded w s).power = s.power := by
  unfold writeEnded
  split
  · rfl
  · rename_i seq e drain _
    cases drain with
    | none => exact (answerErase_power _ _ _ _).trans (settleStale_power _ _ _)
    | some k => exact settleStale_power _ _ _
  · unfold generateEnd
    split
    · simp only [endRequest_power, generateLoad_power]
    · rfl
  · rfl

theorem afterFailure_power (f : LinkEnd) (s : State) : (afterFailure f s).power = s.power := by
  unfold afterFailure
  split
  · exact readEnded_power _ _ _
  · exact writeEnded_power _ _

/-- Getting to an element twice is getting to it once. -/
theorem begunBy_twice (x : Transaction) (p : LinkPoint) :
    begunBy (begunBy x p) p = begunBy x p := by
  rcases x with ⟨kind, h, r, q, l, a, b, f, g⟩
  cases kind <;> cases b <;> cases h : decide (p ≠ .openingStart) <;> simp [begunBy, h]

/-- What a command does that fails the transaction in progress. -/
theorem exec_of_failsBy {s : State} {x : Transaction} {c : Instr} {f : LinkEnd}
    (h : failsBy s x c f) (hr : s.power = .run) : exec c s = .next (afterFailure f s) := by
  obtain ⟨hp, hx, h⟩ := h
  have hdue : lockingStepIfDue (afterFailure f s) = afterFailure f s :=
    lockingStepIfDue_of_power (by rw [afterFailure_power, hr]; nofun)
  rcases h with ⟨rfl, hm, ha, rfl⟩ | ⟨b, rfl, hm, rfl⟩ | ⟨p, rfl, hm, rfl⟩ | ⟨rfl, hst, hfw, rfl⟩ |
      ⟨p, r, rfl, hm, hk, hlast, hread, rfl⟩
  · show rule _ s = _
    rw [rule_of_powered _ hp]
    simp only [addressNacked, hx, hm, if_true, unacknowledged, ha]
    rw [if_pos (show 23 + 1 = maxAttempts from rfl), endTransaction_failed]
    rfl
  · show rule _ s = _
    rw [rule_of_powered _ hp]
    simp only [dataNacked, hx, hm, if_true]
    rw [endTransaction_failed]
    rfl
  · show closingRule _ s = _
    rw [closingRule_of_powered _ hp, ← hdue]
    have ha : x.abandoning = false := by
      simp only [canMeet, Bool.and_eq_true, Bool.not_eq_true'] at hm; exact hm.1.2
    have hres : stretchResult x p = .failed (decidedOr .stretchTimeout x p) := by
      unfold stretchResult decidedOr maxAttempts
      rw [ha]
      cases p <;> simp
      split_ifs <;> simp_all
    simp only [stretchOut, hx, hm, Bool.true_or, if_true, hres]
    rw [endTransaction_failed]
    rfl
  · show rule _ s = _
    rw [rule_of_powered _ hp]
    obtain ⟨n, hn⟩ := Option.isSome_iff_exists.1 hfw
    simp only [freeWaitEnds, hst, hx, hn]
    rw [endTransaction_failed]
    rfl
  · show closingRule _ s = _
    rw [closingRule_of_powered _ hp, ← hdue]
    have hcol : collide (begunBy x p) p r (trackBusy s) =
        endTransaction (begunBy x p) (.failed (decidedOr .lost x p)) .idle (trackBusy s) := by
      have hl : ∀ y : Transaction, y.lossCount = x.lossCount → x.lossCount = 3 → ∀ u,
          loseArbitration y u = endTransaction y (.failed .lost) .idle u := by
        intro y hy h3 u
        unfold loseArbitration
        rw [if_neg]
        rw [hy, h3]
        decide
      have hfacts : ∀ o, factsReached (unacknowledged (begunBy x .addressStop)) (some o) =
          factsReached (begunBy x .addressStop) (some o) := by
        intro o
        have : factsReached (unacknowledged (begunBy x .addressStop)) (some o) =
            factsReached (begunBy (begunBy x .addressStop) .addressStop) (some o) := rfl
        rw [this, begunBy_twice]
      unfold collide
      split
      · rename_i k hkind
        have h99 := (hread hkind).2
        have : checksLine s.link x (.receiveByte k) = decide (k.val = 99) := rfl
        rw [this] at hk
        exact absurd (congrArg LinkPoint.receiveByte (Fin.ext (of_decide_eq_true hk))) h99
      · rename_i hkind
        exact absurd rfl (hread hkind).1
      · rfl
      · by_cases h23 : x.addressAttempts = 23
        · rw [if_pos (show (begunBy x .addressStop).addressAttempts + 1 = maxAttempts by
            show x.addressAttempts + 1 = 24; omega)]
          simp only [decidedOr, h23, if_true]
          exact endTransaction_failed_congr _ _ _ rfl hfacts
        · have h3 : x.lossCount = 3 := by
            rcases hlast with h | h | h
            · contradiction
            · exact absurd h.2 h23
            · exact h
          rw [if_neg (show ¬(begunBy x .addressStop).addressAttempts + 1 = maxAttempts by
            show ¬x.addressAttempts + 1 = 24; omega), hl (unacknowledged (begunBy x .addressStop)) rfl h3]
          simp only [decidedOr, h23, if_false]
          exact endTransaction_failed_congr _ _ _ rfl hfacts
      · rename_i n1 n2 n3 n4 n5 n6
        have h3 : x.lossCount = 3 := by
          rcases hlast with h | h | h
          · exact absurd h n3
          · exact absurd h.1 n4
          · exact h
        rw [hl (begunBy x _) rfl h3]
        have : ∀ q : LinkPoint, q ≠ .nackStop → q ≠ .addressStop → decidedOr .lost x q = .lost := by
          intro q h1 h2
          cases q <;> first | rfl | contradiction
        rw [this _ n3 n4]
    simp only [meetCollision, hx, hk, hm, Bool.not_true, Bool.false_eq_true, if_false, if_true, hcol]
    rw [endTransaction_failed]
    rfl

/-! ## Ends ABANDONED (R135) -/


/-- The executing request has ended ABANDONED. -/
theorem requestAbandoned_eq (f : WriteFacts) (s : State) :
    requestAbandoned f s = abandonedAs f s := by
  unfold requestAbandoned abandonedAs
  rcases hx : s.executing with _ | ⟨seq, r⟩
  · rfl
  · cases r with
    | unlock e d slot => cases slot <;> rfl
    | rewrap e p => rfl
    | generate e d k => rfl
    | erase e d w =>
      have key : ∀ (p : WritePhase) (b : Bool),
          endRequest .erase seq .abandoned [staleItem e (settleStale e b s), phaseItem p]
              (settleStale e b s) =
            (let t : State :=
              { s with
                extents := s.extents.set e (s.extents[e].map fun x => { x with storeStale := b }) }
            ended .erase seq .abandoned [staleItem e t, item1 0x60 p.code]
              (if b then setFlag .storeStale t else t)) := by
        intro p b
        cases b <;> rfl
      cases w with
      | none =>
        have k := key f.phase (decide (f.phase ≠ .verified))
        rw [hx] at k
        exact k
      | some w =>
        have k := key w.facts.phase (decide (w.facts.phase ≠ .verified))
        rw [hx] at k
        exact k

/-- The facts of the operation that a transaction leaves behind. -/
theorem factsOf_absorb (x : Transaction) (o : Option WriteOperation) :
    factsOf (o.map (absorb x)) = factsReached x o := by
  cases o with
  | none => rfl
  | some o => exact absorbed_facts x o

/-- A transaction that ends ABANDONED ends its request. -/
theorem endTransaction_abandoned (x : Transaction) (st : LinkState) (s : State) :
    endTransaction x .abandoned st s =
      abandonedAs (factsReached x s.link.operation)
        { s with link := rested st s.link.tracking s.link.releaseWatch s.link } := by
  unfold endTransaction
  simp only
  rw [requestAbandoned_eq, factsOf_absorb]
  rfl

/-! ## Ends on a link that is BUSY_OTHER (R132) -/

/-- The part with another Link Master. -/
def relink (l : LinkMaster) (t : State) : State := { t with link := l }

/-- The part whose link has become BUSY_OTHER, a transaction just asked for waiting for it. -/
def busied (watch : Bool) (t : State) : State :=
  { t with
    link :=
      let busy : LinkMaster := { t.link with tracking := .busyOther, releaseWatch := watch }
      match t.link.transaction with
      | none => busy
      | some x => attempting x busy }

/-- A load does not read the link. -/
theorem loadKey_relink (n e k l) (s : State) :
    loadKey n e k (relink l s) = relink l (loadKey n e k s) := by
  show (match s.extents[e] with | none => _ | some x => _) = _
  unfold loadKey
  cases s.extents[e] <;> rfl

/-- A counted try does not read the link. -/
theorem countTry_relink (e l) (s : State) : countTry e (relink l s) = relink l (countTry e s) := by
  show (match s.extents[e] with | none => _ | some x => _) = _
  unfold countTry
  cases s.extents[e] with
  | none => rfl
  | some x => simp only; split <;> rfl

/-- The answer of an ERASE does not read the link. -/
theorem answerErase_relink (seq e w l) (s : State) :
    answerErase seq e w (relink l s) = relink l (answerErase seq e w s) := by
  unfold answerErase
  cases w.outcome <;> rfl

/-- Settling store stale does not read the link. -/
theorem settleStale_relink (e b l) (s : State) :
    settleStale e b (relink l s) = relink l (settleStale e b s) := by
  cases b <;> rfl

/-- The end of an UNLOCK does not read the link. -/
theorem unlockEnd_relink (seq e d slot v l) (s : State) :
    unlockEnd seq e d slot v (relink l s) = relink l (unlockEnd seq e d slot v s) := by
  have hf : freeAllocated slot (relink l s) = relink l (freeAllocated slot s) := by cases slot <;> rfl
  cases v with
  | sound k =>
    have : unlockSound e d slot k (relink l s) = relink l (unlockSound e d slot k s) := by
      unfold unlockSound
      cases slot with
      | none => rfl
      | some n => simp only [loadKey_relink]; rfl
    simp only [unlockEnd, this]
    rfl
  | badCredential => simp only [unlockEnd, hf, countTry_relink]; rfl
  | keyVoid => simp only [unlockEnd, hf]; rfl
  | recordBad => simp only [unlockEnd, hf]; rfl
  | link f => simp only [unlockEnd, hf]; rfl

/-- The load of a GENERATE does not read the link. -/
theorem generateLoad_relink (e d slot k l) (s : State) :
    generateLoad e d slot k (relink l s) = relink l (generateLoad e d slot k s) := by
  unfold generateLoad
  rw [loadKey_relink]; rfl

/-- The end of a write operation does not read the link. -/
theorem writeEnded_relink (w l) (s : State) :
    writeEnded w (relink l s) = relink l (writeEnded w s) := by
  unfold writeEnded
  have : (relink l s).executing = s.executing := rfl
  rw [this]
  split
  · rfl
  · rename_i seq e drain _
    unfold eraseWritten
    simp only [settleStale_relink]
    cases drain with
    | none => exact answerErase_relink _ _ _ _ _
    | some k => rfl
  · rename_i seq e d slot _
    unfold generateEnd
    have : (relink l s).context = s.context := rfl
    rw [this]
    split
    · simp only [generateLoad_relink]; rfl
    · rfl
  · rfl

/-- A part whose Link Master has no transaction. -/
theorem busied_none {l : LinkMaster} {t : State} {b : Bool} (h : l.transaction = none) :
    busied b (relink l t) = relink { l with tracking := .busyOther, releaseWatch := b } t := by
  unfold busied
  have : (relink l t).link.transaction = none := h
  rw [this]
  rfl

/-- The end of a request does not read the link. -/
theorem endRequest_relink (n q r it l) (s : State) :
    endRequest n q r it (relink l s) = relink l (endRequest n q r it s) := rfl

/-- The items of a try do not read the link. -/
theorem tryItems_relink (e l) (s : State) : tryItems e (relink l s) = tryItems e s := rfl

/-- The write of a REWRAP is asked for on a link that is BUSY_OTHER, or on any other and waits then. -/
theorem rewrapWrite_busied (seq e h r new k) (b : Bool) (l : LinkMaster) (s : State) :
    rewrapWrite seq e h r new k (relink { l with tracking := .busyOther, releaseWatch := b } s) =
      busied b (rewrapWrite seq e h r new k (relink l s)) := by
  unfold rewrapWrite
  simp only [startWrite_eq]
  rfl

/-- The proof of a REWRAP on a link that is BUSY_OTHER. -/
theorem rewrapProof_busied (seq e h old new read) (b : Bool) (l : LinkMaster)
    (hl : l.transaction = none) (s : State) :
    rewrapProof seq e h old new read (relink { l with tracking := .busyOther, releaseWatch := b } s) =
      busied b (rewrapProof seq e h old new read (relink l s)) := by
  unfold rewrapProof
  split
  · have he : ∀ (l f), (updateExtent e f (relink l s)) = relink l (updateExtent e f s) := fun _ _ => rfl
    have hr : ∀ (l) (v : State), (relink l v).random = v.random := fun _ _ => rfl
    simp only [he, hr]
    generalize updateExtent _ _ s = v
    split
    · exact rewrapWrite_busied _ _ _ _ _ _ _ l (setContext _ v)
    · rw [endRequest_relink, endRequest_relink, busied_none hl]
  · simp only [countTry_relink]
    rw [endRequest_relink, endRequest_relink, tryItems_relink, tryItems_relink, busied_none hl]
  · rw [endRequest_relink, endRequest_relink, busied_none hl]

/-- The end of a READ RECORD that is no read-back on a link that is BUSY_OTHER. -/
theorem readEnded_busied (h : Handle) (read) (watch : Bool) (u : State) (l : LinkMaster)
    (hl : l.transaction = none) :
    readEnded h read (relink { l with tracking := .busyOther, releaseWatch := watch } u) =
      busied watch (readEnded h read (relink l u)) := by
  have h1 : ∀ l, (relink l u).executing = u.executing := fun _ => rfl
  have h2 : ∀ l, (relink l u).context = u.context := fun _ => rfl
  unfold readEnded
  rw [h1, h1]
  split
  · rw [h2, h2]
    split
    · rw [unlockEnd_relink, unlockEnd_relink, busied_none hl]
    · rw [busied_none hl]
  · rw [h2, h2]
    split
    · exact rewrapProof_busied _ _ _ _ _ _ _ l hl u
    · rw [busied_none hl]
  · rw [busied_none hl]

end Sys2Proof.Machine
end

