-- ==== Sys2Proof/Laws/Tables.lean ====
section
/-! SUPPORT. The checks of the Extent Table's requests, as what they ask of the tables (R41, R51, R53). -/

namespace Sys2Proof.Machine

theorem jobOfNamespace_iff (n : NamespaceId) (s : State) :
    jobOfNamespace n s = true ↔ ∃ (t : TagId) (j : Job), s.jobs[t] = some j ∧ j.ns = n := by
  simp only [jobOfNamespace, List.any_eq_true, List.mem_finRange, true_and]
  constructor
  · rintro ⟨t, ht⟩
    rcases hx : s.jobs[t] with _ | j
    · simp [hx] at ht
    · exact ⟨t, j, hx, by simpa [hx] using ht⟩
  · rintro ⟨t, j, hx, hj⟩
    exact ⟨t, by simp [hx, hj]⟩

theorem definedInNamespace_iff (n : NamespaceId) (s : State) :
    definedInNamespace n s = true ↔
      ∃ (e : ExtentId) (x : Extent), 4 ≤ e.val ∧ s.extents[e] = some x ∧ x.ns = n := by
  simp only [definedInNamespace, List.any_eq_true, List.mem_finRange, true_and, Bool.and_eq_true,
    decide_eq_true_eq]
  constructor
  · rintro ⟨e, h4, he⟩
    rcases hx : s.extents[e] with _ | x
    · simp [hx] at he
    · exact ⟨e, x, h4, hx, by simpa [hx] using he⟩
  · rintro ⟨e, x, h4, hx, hn⟩
    exact ⟨e, h4, by simp [hx, hn]⟩

theorem liveExtent_iff (e : ExtentId) (s : State) :
    liveExtent e s = true ↔ ∃ x k, s.extents[e] = some x ∧ x.key = .live k := by
  simp only [liveExtent]
  rcases s.extents[e] with _ | x
  · simp
  · rcases hk : x.key <;> simp [KeyStatus.isLive, hk]

theorem overlaps_iff (n : NamespaceId) (first last : Nat) (s : State) :
    overlaps n first last s = true ↔
      ∃ (e : ExtentId) (x : Extent) (p : Span), s.extents[e] = some x ∧ x.ns = n ∧ x.span = some p ∧
        p.first ≤ last ∧ first ≤ p.last := by
  simp only [overlaps, List.any_eq_true, List.mem_finRange, true_and]
  constructor
  · rintro ⟨e, he⟩
    rcases hx : s.extents[e] with _ | x
    · simp [hx, spanIn] at he
    · simp only [hx, spanIn] at he
      split at he <;> try contradiction
      rename_i p hp
      split at hp <;> try contradiction
      rename_i hn
      exact ⟨e, x, p, hx, hn, hp, by simpa [Span.meets] using he⟩
  · rintro ⟨e, x, p, hx, hn, hp, h1, h2⟩
    exact ⟨e, by simp [hx, spanIn, hn, hp, Span.meets, h1, h2]⟩

theorem jobInSpan_iff (n : NamespaceId) (first last : Nat) (s : State) :
    jobInSpan n first last s = true ↔
      ∃ (t : TagId) (j : Job), s.jobs[t] = some j ∧ j.ns = n ∧ j.firstLba ≤ last ∧
        first ≤ j.firstLba + j.count - 1 := by
  simp only [jobInSpan, List.any_eq_true, List.mem_finRange, true_and]
  constructor
  · rintro ⟨t, ht⟩
    rcases hx : s.jobs[t] with _ | j
    · simp [hx, jobMeets] at ht
    · exact ⟨t, j, hx, by simpa [hx, jobMeets, and_assoc] using ht⟩
  · rintro ⟨t, j, hx, h1⟩
    exact ⟨t, by simpa [hx, jobMeets, and_assoc] using h1⟩

/-- Some job record names an extent exactly when its count is not 0. -/
theorem jobsNaming_pos (e : ExtentId) (s : State) :
    0 < jobsNaming e s ↔ ∃ (t : TagId) (j : Job), s.jobs[t] = some j ∧ j.extent = e := by
  simp only [jobsNaming, List.countP_pos_iff, List.mem_finRange, true_and]
  constructor
  · rintro ⟨t, ht⟩
    rcases hx : s.jobs[t] with _ | j
    · simp [hx, namesExtent] at ht
    · exact ⟨t, j, hx, by simpa [hx, namesExtent] using ht⟩
  · rintro ⟨t, j, hx, hj⟩
    exact ⟨t, by simp [hx, namesExtent, hj]⟩

/-- The table is never full for an opener whose tag is free (R25). -/
theorem jobCount_of_free {t : TagId} {s : State} (h : s.jobs[t] = none) : jobCount s ≠ 48 := by
  intro hc
  have := List.countP_eq_length.1 (show (List.finRange 48).countP (fun t => s.jobs[t].isSome) =
    (List.finRange 48).length by rw [List.length_finRange]; exact hc)
  have := this t (List.mem_finRange _)
  simp [h] at this

end Sys2Proof.Machine
end

