-- ==== Sys2Proof/Tests/Slice0.lean ====
section
/-! SUPPORT. The model's own tests: terms that the well-formedness check refuses, messages read from their
bytes, single steps on small states, and for each statement a state and operands that meet its hypotheses. -/

namespace Sys2Proof.Tests

open Sys2Proof.Machine

set_option Elab.async false

/-! ## Small states -/

def key : LoadedKey := { block := 1, size := .k512, mode := .tweak }

def tagKey : LoadedKey := { block := 1, size := .k512, mode := .tagged }

def slotWith (e : ExtentId) (k : LoadedKey) (pins : Nat) : Slot :=
  { Slot.empty with state := .ready e k, pins := pins }

/-- The global extent of namespace 0, LIVE in slot 0 and unlocked. -/
def live : Extent :=
  { newExtent 0 none 5 Policy.default with key := .live 0, readLock := false, writeLock := false }

/-- The global extent of namespace 0 with a key status and both locks set. -/
def locked (k : KeyStatus) : Extent :=
  { newExtent 0 none 5 Policy.default with key := k }

/-- A running part with one namespace of 1000 sectors, its global extent, and slot 0. -/
def part (x : Extent) (v : Slot) : State :=
  { State.reset with
    power := .run
    namespaces := State.reset.namespaces.set 0 { size := 1000, sectorSize := .b512 }
    extents := State.reset.extents.set 0 (some x)
    slots := State.reset.slots.set 0 v
    random := { state := .ready, warmUp := 1024 }
    pipes := Vector.replicate 4 { inService := true, checkPending := false, pass := none } }

def running : State := part live (slotWith 0 key 0)

def opener (tag direction ns : Byte) (count : BitVec 16) : OpenerMsg :=
  { length := 12, tag := tag, direction := direction, ns := ns, firstLba := 0, count := count
    reserved := 0 }

def fields (d : Direction) (count : Nat) : Opener :=
  { tag := 0, direction := d, ns := 0, firstLba := 0, count := count }

/-- An ENCIPHER job of two sectors under tag 0. -/
def job : Job := freshJob (fields .encipher 2) 0 (.cipher 0)

def withJob (j : Job) (s : State) : State :=
  { s with jobs := s.jobs.set 0 (some j) }

def zeros (n : Nat) : Bytes := List.replicate n 0

def sectorMsg (tag : Byte) (n : Nat) : SectorInMsg :=
  { tag := tag, flags := 0, lengthCode := 0, reserved4 := 0, reserved5 := 0, payload := zeros n }

def fullPool : Vector Buffer 96 := Vector.replicate 96 { use := .held, data := [], tag := none }

def req (target : Byte) (items : List Item) : Request := { seq := 7, target := target, items := items }

/-- A Link Master with a transaction at a place, on a link that is FREE. -/
def linkAt (st : LinkState) (p : Position) (kind : TransactionKind) (o : Option WriteOperation) :
    LinkMaster :=
  { State.reset.link with
    state := st, tracking := .free, releaseWatch := false, operation := o
    transaction := some { freshContext kind 5 [] with position := p } }

def operation : WriteOperation :=
  { bytes := voidRecord, writeBegun := true, finalStopSent := true, verified := false }

/-- A part whose UNLOCK of extent 0 holds slot 0 and reads its record. -/
def unlocking (l : LinkMaster) : State :=
  { part (locked .none) { Slot.empty with state := .loading 0 } with
    link := l
    executing := some
      { seq := 7, request := .unlock 0 { read := true, write := true } (some 0) }
    context := { WorkingContext.empty with credential := some 0 } }

def executing (r : LongRequest) (l : LinkMaster) (s : State) : State :=
  { s with link := l, executing := some { seq := 7, request := r } }

/-! ## Ill-formed terms (WellFormed.lean) -/

theorem test_itemTooLong : (Instr.identify (req 0xFF [{ code := 0x20, value := zeros 256 }])).wellFormed = false := by
  decide +kernel
theorem test_parametersTooLong :
    (Instr.unlock (req 0 (List.replicate 5 { code := 0x20, value := zeros 203 }))).wellFormed = false := by
  decide +kernel
theorem test_openerWithoutBytes :
    (Instr.jobOpener { opener 0 1 0 1 with length := 0 }).wellFormed = false := by decide +kernel
theorem test_knownTypeIsNotUnknown :
    (Instr.unknownMessageType .control [0x10, 0, 0]).wellFormed = false := by decide +kernel
theorem test_knownDataTypeIsNotUnknown :
    (Instr.unknownMessageType .data [0x11]).wellFormed = false := by decide +kernel
theorem test_noCollisionWhileADeviceSends :
    (Instr.collision (.receiveByte 5) voidRecord).wellFormed = false := by decide +kernel
theorem test_longestParametersAreWellFormed :
    (Instr.unlock (req 0 (List.replicate 4 { code := 0x20, value := zeros 254 }))).wellFormed = true := by
  decide +kernel

/-! ## Messages from their bytes (12.1, 12.2, R164) -/

theorem test_openerFromBytes :
    decodeControl [0x10, 47, 0x02, 3, 0x01, 0x02, 0x03, 0x04, 0x05, 0x01, 0x00, 0x00] =
      .jobOpener
        { length := 12, tag := 47, direction := 0x02, ns := 3, firstLba := 0x0102030405
          count := 256, reserved := 0 } := by decide +kernel
theorem test_lockFromBytes :
    decodeControl [0x12, 0x0A, 0x31, 5, 0x00, 0x09, 0x23, 1, 0x03, 0x24, 1, 0x01, 0x25, 1, 0x02] =
      .lock { seq := 0x31, target := 5, items := [item1 0x23 3, item1 0x24 1, item1 0x25 2] } := by
  decide +kernel
theorem test_identifyFromBytes :
    decodeControl [0x12, 0x01, 0x09, 0xFF, 0x00, 0x00] = .identify { seq := 9, target := 0xFF, items := [] } := by
  decide +kernel
theorem test_unknownCodeFromBytes :
    decodeControl [0x12, 0x08, 0x09, 0xFF, 0x00, 0x00] = .unknownRequest 0x08 0x09 := by decide +kernel
theorem test_itemsThatDoNotFillAreRejected :
    decodeControl [0x12, 0x0C, 0x09, 0x05, 0x00, 0x03, 0x25, 2, 0x01] = .unknownRequest 0x0C 0x09 := by
  decide +kernel
theorem test_sectorFromBytes :
    decodeData ([0x11, 3, 0x01, 0x00, 0, 0] ++ [0xAB]) =
      .sectorIn
        { tag := 3, flags := 1, lengthCode := 0, reserved4 := 0, reserved5 := 0, payload := [0xAB] } := by
  decide +kernel
theorem test_unknownTypeFromBytes :
    decodeControl [0x11, 1, 2] = .unknownMessageType .control [0x11, 1, 2] := by decide +kernel
theorem test_closerBytes :
    Closer.bytes
      { tag := 8, outcome := .aborted, cause := some (.cut .cutHold), extent := some 9, emitted := 5
        substituted := 0, faultIndex := some 5 } =
      [0x22, 8, 0x04, 0x23, 9, 0, 0, 5, 0, 0, 0, 5, 0, 0] := by decide +kernel
theorem test_refusalCloserBytes :
    Closer.bytes (refusalCloser 50 .format none) =
      [0x22, 50, 0x02, 0x01, 0xFF, 0, 0, 0, 0, 0, 0xFF, 0xFF, 0, 0] := by decide +kernel
theorem test_noWordSpellsACommand : decodeTableWord 16 0x1234 = none := rfl

/-! ## Single steps -/

/-- The state a step gives, if it gives one. -/
def after (s : State) : Option State :=
  match step s with
  | .next t => some t
  | _ => none

/-- A step with one command in the queue. -/
def stepOf (c : Instr) (s : State) : Option State :=
  after { s with pending := [c] }

theorem test_openerOpensJob :
    (stepOf (.jobOpener (opener 0 1 0 2)) running).map (fun t => (t.jobs[(0 : TagId)], t.slots[(0 : SlotId)].pins)) =
      some (some job, 1) := by decide +kernel
theorem test_openerWithoutRunIsRefused :
    (stepOf (.jobOpener (opener 0 1 0 2)) State.reset).map State.outControl =
      some [.closer (refusalCloser 0 .starting none)] := by decide +kernel
theorem test_straySetsFlag :
    (stepOf (.sectorIn (sectorMsg 0 512)) running).map (fun t => t.flags[(3 : Fin 13)].isSet) = some true := by
  decide +kernel
theorem test_sectorIsListed :
    (stepOf (.sectorIn (sectorMsg 0 512)) (withJob job running)).map (fun t => t.ready) =
      some [{ tag := 0, index := 0, buffer := 0 }] := by decide +kernel
theorem test_shortSectorStopsJob :
    (stepOf (.sectorIn (sectorMsg 0 511)) (withJob job (part live (slotWith 0 key 1)))).map State.outControl =
      some
        [.closer
          { tag := 0, outcome := .stopped, cause := some (.condition .format), extent := some 0
            emitted := 0, substituted := 0, faultIndex := some 0 }] := by decide +kernel
theorem test_unknownRequestIsFormat :
    (stepOf (.unknownRequest 0x08 9) State.reset).map State.outControl =
      some [.answer { code := 0x08, seq := 9, result := .format, items := [] }] := by decide +kernel
/-- Step 3 of the worked example of 10.7: a flag that was read is cleared, one set since is kept. -/
theorem test_clearKeepsUnreported :
    (stepOf (.clearEvents (req 0xFF [{ code := 0x40, value := [1, 4] }]))
      { running with
        flags := (coldStartFlags.set 0 { state := .set true, enable := true }).set 3
          { state := .set false, enable := true } }).map State.outControl =
      some
        [.answer
          { code := 0x11, seq := 7, result := .ok, items := [itemN 0x70 2 8, itemN 0x73 2 8] }] := by
  decide +kernel
theorem test_lastCheckEndsStarting :
    (stepOf (.selfCheckEnd 3 true)
      { State.reset with
        pipes := (Vector.replicate 4 { inService := false, checkPending := false, pass := none }).set 3
          Pipe.coldStart }).map (fun t => t.power) = some .run := by decide +kernel
theorem test_noPipeFails :
    (stepOf (.selfCheckEnd 3 false)
      { State.reset with
        pipes := (Vector.replicate 4 { inService := false, checkPending := false, pass := none }).set 3
          Pipe.coldStart }).map (fun t => t.power) = some .failed := by decide +kernel
theorem test_holdLocksARunningPart :
    (stepOf .holdRises running).map
      (fun t => (t.power, (t.extents[(0 : ExtentId)].map Extent.key), t.slots[(0 : SlotId)].state)) =
      some (.hold, some .none, .empty) := by decide +kernel
theorem test_warmUpEnds :
    (stepOf .warmUpEnd { State.reset with random := { state := .warming, warmUp := 1023 } }).map
      (fun t => t.random.state) = some .ready := by decide +kernel
theorem test_unlockOfErasedIsRefused :
    (stepOf (.unlock (req 0 [{ code := 0x20, value := zeros 32 }, item1 0x23 3]))
      (part (locked .erased) Slot.empty)).map State.outControl =
      some [.answer { code := 0x09, seq := 7, result := .keyErased, items := [] }] := by decide +kernel
theorem test_unlockReadsItsRecord :
    (stepOf (.unlock (req 0 [{ code := 0x20, value := zeros 32 }, item1 0x23 3]))
      (part (locked .none) Slot.empty)).map
        (fun t => (t.link.state, t.slots[(0 : SlotId)].state, t.outControl)) =
      some (.waitFree, .loading 0, []) := by decide +kernel
theorem test_eraseReleasesAtOnce :
    (stepOf (.erase (req 0 [item1 0x25 1])) running).map
      (fun t => ((t.extents[(0 : ExtentId)].map Extent.key), t.slots[(0 : SlotId)].state)) =
      some (some .erased, .empty) := by decide +kernel
theorem test_nackEndsAnUnlock :
    (stepOf (.nackData .handleByte) (unlocking (linkAt .send .handleByte .readRecord none))).map
      (fun t => (t.outControl, t.slots[(0 : SlotId)].state)) =
      some ([.answer { code := 0x09, seq := 7, result := .nackData, items := [] }], .empty) := by decide +kernel
theorem test_twoStopsEndNothing :
    (stepOf .stopObserved running).map (fun t => t.link.tracking) = some .free := by decide +kernel
theorem test_tickLowers :
    (stepOf .tick { running with timers := running.timers.set 0 (.counting 3) }).map
      (fun t => t.timers[(0 : ExtentId)]) = some (.counting 2) := by decide +kernel
/-- The period that completes the tick period takes the tick, the one before it does not (R138). -/
theorem test_periodsTakeTheTick :
    ([32766, 32767].map fun d =>
      (fun t => (t.divider, t.timers[(0 : ExtentId)]))
        (countPeriod { running with divider := d, timers := running.timers.set 0 (.counting 3) })) =
      [(32767, .counting 3), (0, .counting 2)] := by decide +kernel
theorem test_coldStartEndsInertness :
    (stepOf (.coldStart .resetN) { State.reset with resetN := false, attn := false }).map
      (fun t => (t.attn, t.power)) = some (true, .starting) := by decide +kernel

/-! ## Witnesses: the hypotheses of each statement are met together -/

theorem running_accepts : Accepts running := by
  unfold Accepts Listens
  decide +kernel

/-- The hypotheses of StepRunsFrontCommand. -/
theorem test_witness_frontCommand :
    ({ running with pending := [.tick, .holdRises] } : State).pending = [.tick, .holdRises] := rfl

/-- The hypotheses of EmptyQueueLetsTimePass: inert; nothing to deliver; a delivery held up; a message that waits
with nothing withheld; a clear data channel; a link that is not held. -/
theorem test_witness_emptyQueue :
    running.pending = [] ∧ running.powered = true ∧ running.inbound = [] ∧
      ({ running with powerGood := false } : State).powered = false ∧
      ({ running with
        inbound := [.unknown], withheld := some { tag := 0, data := [], stored := none } } :
          State).withheld.isSome = true ∧
      ({ running with inbound := [.unknown, .unknown] } : State).withheld = none ∧
      channelClear running ∧
      (unlocking (linkAt .waitFree .address .readRecord none)).link.state.holdsLink = false ∧
      (unlocking (linkAt .stop (.dataByte 100) .readRecord none)).link.state = .stop := by
  unfold channelClear
  decide +kernel

/-- The hypotheses of the clauses of TicksCountAndRestart on the divider, one short of the last period and at it. -/
theorem test_witness_divider :
    running.powered = true ∧ running.divider + 1 < running.tickPeriod.refclkPeriods ∧
      ({ running with divider := 32766 } : State).divider + 1 < running.tickPeriod.refclkPeriods ∧
      running.tickPeriod.refclkPeriods ≤ ({ running with divider := 32767 } : State).divider + 1 := by
  decide +kernel

/-- The hypotheses of the clauses of EmptyQueueLetsTimePass on the steps of an element: the first and the last step
of a byte that is sent, of a start, of a received byte and of a stop. -/
theorem test_witness_steps :
    (∀ place ∈ [((LinkState.send, Position.handleByte), 17), ((.start, .address), 1),
        ((.restart, .handleByte), 2), ((.receive, .dataByte 1), 17), ((.stop, .dataByte 100), 2)],
      (linkAt place.1.1 place.1.2 .readRecord none).state.holdsLink = true ∧
        ∀ x : Transaction, x ∈ [{ freshContext .readRecord 5 [] with position := place.1.2 }] →
          let l := linkAt place.1.1 place.1.2 .readRecord none
          x.phase + 1 < (elementLines l x (currentElement l x)).length ∧
            (elementLines l x (currentElement l x)).length ≤
              ({ x with phase := place.2 } : Transaction).phase + 1) := by decide +kernel

/-- The hypotheses of the last clause of EmptyQueueLetsTimePass: the first two elements of a WRITE RECORD, its last
data byte and its stop, and the handle byte of a READ RECORD and its repeated start. -/
theorem test_witness_elements :
    ((elementsOf .writeRecord)[0]? = some .openingStart ∧
        (elementsOf .writeRecord)[0 + 1]? = some .writeAddress ∧
        placeOf .openingStart = (.start, .address)) ∧
      ((elementsOf .writeRecord)[102]? = some (.dataByte 99) ∧
        (elementsOf .writeRecord)[102 + 1]? = some .finalStop ∧
        placeOf (.dataByte 99) = (.send, .dataByte 100)) ∧
      ((elementsOf .readRecord)[2]? = some .handleByte ∧
        (elementsOf .readRecord)[2 + 1]? = some .repeatedStart ∧
        placeOf .handleByte = (.send, .handleByte)) ∧
      (linkAt .send .handleByte .readRecord none).state = .send ∧
      (freshContext .readRecord 5 []).abandoning = false := by decide +kernel

/-- The hypothesis of NoCommandStopsThePart on an inert part. -/
theorem test_witness_inert : ({ running with resetN := false } : State).powered = false := by
  decide +kernel

/-- The hypothesis of RequestsReadBackFromBytes, at 1024 bytes of items. -/
theorem test_witness_readBack :
    (req 0 (List.replicate 4 { code := 0x20, value := zeros 254 })).wellFormed = true := by
  decide +kernel

/-- The hypothesis of JobMessagesReadBackFromBytes. -/
theorem test_witness_openerLength : (opener 0 1 0 1).length = 12 := rfl

/-- The hypotheses of OpenerFieldsOrFormat, each field just outside its range and all at their bounds. -/
theorem test_witness_openerFields :
    running.powered = true ∧ ({ opener 0 1 0 1 with length := 13 } : OpenerMsg).length ≠ 12 ∧
      ({ opener 0 1 0 1 with reserved := 1 } : OpenerMsg).reserved ≠ 0 ∧
      47 < (opener 48 1 0 1).tag.toNat ∧
      ((opener 0 3 0 1).direction ≠ 0x01 ∧ (opener 0 3 0 1).direction ≠ 0x02) ∧
      3 < (opener 0 1 4 1).ns.toNat ∧ (opener 0 1 0 0).count.toNat = 0 ∧
      256 < (opener 0 1 0 257).count.toNat ∧
      ((opener 47 2 3 256).tag.toNat ≤ 47 ∧ (opener 47 2 3 256).direction = 0x02 ∧
        (opener 47 2 3 256).ns.toNat ≤ 3 ∧ 1 ≤ (opener 47 2 3 256).count.toNat ∧
        (opener 47 2 3 256).count.toNat ≤ 256) := by decide +kernel

/-- The hypotheses of OpenerRefusedByTheFirstCheck, checks 2 to 7: each in a state where those before it pass;
a span that ends at the namespace's size, and one that leaves the extent of its first LBA. -/
theorem test_witness_openerRefused :
    openerFields? (opener 0 1 0 2) = some (fields .encipher 2) ∧
      (withJob job running).jobs[(0 : TagId)].isSome = true ∧
      (State.reset.jobs[(0 : TagId)] = none ∧ State.reset.power ≠ .run) ∧
      (running.jobs[(0 : TagId)] = none ∧ running.power = .run ∧
        running.namespaces[(1 : NamespaceId)].size = 0) ∧
      (running.namespaces[(0 : NamespaceId)].size ≤ 999 + 2 - 1) ∧
      spanWithin 0 0 (0 + 2 - 1)
        { running with
          extents := running.extents.set 4
            (some (newExtent 0 (some { first := 1, last := 9 }) 6 Policy.default)) } = false := by
  decide +kernel

/-- The hypotheses of OpenerRefusedByTheFirstCheck, checks 8 to 12, and of OpenerAdmitted. -/
theorem test_witness_openerReaches :
    reachesExtent (opener 0 1 0 2) (fields .encipher 2) 0 { live with barred := true }
        (part { live with barred := true } (slotWith 0 key 0)) ∧
      (reachesExtent (opener 0 1 0 2) (fields .encipher 2) 0 (locked .erased)
          (part (locked .erased) Slot.empty) ∧
        maskable .encipher (locked .erased) = some .locked) ∧
      (reachesExtent (opener 0 2 0 2) (fields .decipher 2) 0 { live with key := .erased }
          (part { live with key := .erased } Slot.empty) ∧
        maskable .decipher { live with key := .erased } = some .keyErased ∧
        ({ live with key := .erased } : Extent).policy.mask .keyErased = .stop) ∧
      (reachesExtent (opener 0 1 0 2) (fields .encipher 2) 0 live
          (part live { slotWith 0 key 0 with worn := true, stopAtLimit := true }) ∧
        maskable .encipher live = none ∧ live.key = .live 0) ∧
      (reachesExtent (opener 0 2 0 2) (fields .decipher 2) 0
          { locked .none with policy := { Policy.default with maskLocked := .fill } }
          (part { locked .none with policy := { Policy.default with maskLocked := .fill } }
            Slot.empty) ∧
        maskable .decipher
          { locked .none with policy := { Policy.default with maskLocked := .fill } } = some .locked) ∧
      (reachesExtent (opener 0 1 0 2) (fields .encipher 2) 0 live running ∧ live.barred = false ∧
        ¬(running.slots[(0 : SlotId)].worn = true ∧ running.slots[(0 : SlotId)].stopAtLimit = true)) := by
  refine ⟨?_, ⟨?_, ?_⟩, ⟨?_, ?_, ?_⟩, ⟨?_, ?_, ?_⟩, ⟨?_, ?_⟩, ?_, ?_, ?_⟩
  all_goals first
    | decide +kernel
    | (unfold reachesExtent; decide +kernel)

/-- The hypotheses of SectorOfEndingJobIsDiscarded. -/
theorem test_witness_endingSector :
    channelClear (withJob { job with state := .ending 0 (.stop .format) } running) := by
  unfold channelClear
  decide +kernel

/-- The hypotheses of StraySectorSetsStray: tag 48, a tag without a record, and a job that has all. -/
theorem test_witness_stray :
    channelClear running ∧
      ¬(running.power = .quiescing ∧ tableEmpty running = true ∧ running.executing.isNone = true) ∧
      47 < (sectorMsg 48 512).tag.toNat ∧ running.jobs[(0 : TagId)] = none ∧
      (withJob { job with nextToReceive := 2 } running).jobs[(0 : TagId)] =
        some { job with nextToReceive := 2 } := by
  unfold channelClear
  decide +kernel

/-- The hypotheses of ExpectedSectorIsTaken: a FILL-mode job, and a CIPHER-mode job at its last index. -/
theorem test_witness_expectedSector :
    expectsSector (sectorMsg 0 512) 0 (freshJob (fields .decipher 2) 0 (.fill .locked))
        (withJob (freshJob (fields .decipher 2) 0 (.fill .locked)) running) ∧
      expectsSector (sectorMsg 0 512) 0 { job with nextToReceive := 1 }
        (withJob { job with nextToReceive := 1 } running) ∧
      wellFormedFor (sectorMsg 0 512) { job with nextToReceive := 1 } 0 (zeros 512) none
        (withJob { job with nextToReceive := 1 } running) ∧
      ∃ b : BufferId, running.buffers[b].use = .free := by
  unfold expectsSector channelClear wellFormedFor
  decide +kernel

/-- The hypotheses of FullPoolWithholdsOrDrops, in both settings, of a job with a sector in a pipe and of one that
closes. -/
theorem test_witness_fullPool :
    expectsSector (sectorMsg 0 512) 0 { job with sectorsInPipes := 1 }
        { withJob { job with sectorsInPipes := 1 } running with buffers := fullPool } ∧
      wellFormedFor (sectorMsg 0 512) { job with sectorsInPipes := 1 } 0 (zeros 512) none
        { withJob { job with sectorsInPipes := 1 } running with buffers := fullPool } ∧
      (∀ b : BufferId, fullPool[b].use ≠ .free) ∧ running.stallOnFull = true ∧
      ({ running with stallOnFull := false } : State).stallOnFull = false ∧
      expectsSector (sectorMsg 0 512) 0 job
        { withJob job running with buffers := fullPool, stallOnFull := false } := by
  unfold expectsSector channelClear wellFormedFor
  decide +kernel

/-- The hypotheses of MalformedSectorEndsJob: a rejected header, another sector size, and a stored tag that is
not wanted. -/
theorem test_witness_malformedSector :
    expectsSector (sectorMsg 0 511) 0 { job with sectorsInPipes := 1 }
        (withJob { job with sectorsInPipes := 1 } running) ∧
      sectorInBody? (sectorMsg 0 511) = none ∧
      sectorInBody? (sectorMsg 0 512) = some (.b512, zeros 512, none) ∧
      (running.namespaces.set 0 { size := 8, sectorSize := .b4096 })[job.ns].sectorSize ≠ .b512 ∧
      sectorInBody? { sectorMsg 0 528 with flags := 1 } = some (.b512, zeros 512, some 0) ∧
      ¬((some (0 : SectorTag)).isSome = true ↔
        job.direction = .decipher ∧ running.slots[(0 : SlotId)].state.mode? = some .tagged) := by
  unfold expectsSector channelClear
  decide +kernel

/-- What R164 accepts of a Sector In and what it rejects, at each bound: the forms of sectorInBody?. -/
theorem test_sectorHeaders :
    (sectorInBody? { sectorMsg 0 4096 with lengthCode := 1 }).map (fun p => p.1) = some .b4096 ∧
      sectorInBody? { sectorMsg 0 512 with reserved4 := 1 } = none ∧
      sectorInBody? { sectorMsg 0 512 with reserved5 := 0x80 } = none ∧
      sectorInBody? { sectorMsg 0 512 with flags := 2 } = none ∧
      sectorInBody? { sectorMsg 0 512 with lengthCode := 2 } = none ∧
      sectorInBody? (sectorMsg 0 528) = none ∧
      sectorInBody? { sectorMsg 0 512 with flags := 1 } = none ∧
      sectorInBody? { sectorMsg 0 529 with flags := 1 } = none := by decide +kernel

/-- The hypotheses of MalformedSectorEndsJob for a job that closes in the rule. -/
theorem test_witness_malformedSectorCloses :
    expectsSector (sectorMsg 0 511) 0 job (withJob job running) ∧
      sectorInBody? (sectorMsg 0 511) = none := by
  unfold expectsSector channelClear
  decide +kernel

def listed : State :=
  { withJob job running with
    ready := [{ tag := 0, index := 0, buffer := 0 }]
    buffers := running.buffers.set 0 { use := .listed, data := zeros 512, tag := none } }

/-- The hypotheses of HandOverGivesOldestEntry. -/
theorem test_witness_handOver :
    listed.powered = true ∧ listed.pipes[(3 : PipeId)].inService = true ∧
      listed.pipes[(3 : PipeId)].pass = none ∧ listed.ready = [{ tag := 0, index := 0, buffer := 0 }] ∧
      listed.jobs[(0 : TagId)] = some job ∧ job.mode = .cipher 0 ∧
      listed.slots[(0 : SlotId)].state = .ready 0 key := by decide +kernel

def passing (k : LoadedKey) (d : Direction) : Pass :=
  { tag := 0, index := 1, buffer := 0, slot := 0, size := k.size, mode := k.mode, direction := d
    tweak := { lba := 1, ns := 0 }, sectorSize := .b512, key := k.block }

def inPipe (p : Pass) (b : Buffer) : State :=
  { withJob { freshJob (fields p.direction 2) 0 (.cipher 0) with
      nextToReceive := 2, sectorsInPipes := 1 } running with
    pipes := running.pipes.set 2 { inService := true, checkPending := false, pass := some p }
    buffers := running.buffers.set 0 b }

/-- The hypotheses of CompletedSectorIsHeld: ENCIPHER, and TAGGED DECIPHER with the tag of its data. -/
theorem test_witness_completion :
    (inPipe (passing key .encipher) { use := .inPipe, data := zeros 512, tag := none }).powered = true ∧
      (passing key .encipher).index < 2 ∧ (passing key .encipher).mode = .tweak ∧
      ∃ b : Buffer,
        b.tag = some (Config.sectorTag .k512 1 { lba := 1, ns := 0 }
          (transform .k512 1 { lba := 1, ns := 0 } .decipher b.data)) ∧
        (inPipe (passing tagKey .decipher) b).pipes[(2 : PipeId)].pass = some (passing tagKey .decipher) :=
  ⟨by decide +kernel, by decide, rfl,
    { use := .inPipe, data := zeros 512
      tag := some (Config.sectorTag .k512 1 { lba := 1, ns := 0 }
        (transform .k512 1 { lba := 1, ns := 0 } .decipher (zeros 512))) }, rfl, rfl⟩

/-- The hypotheses of the discarding clause of CompletedSectorIsHeld: a sector at its job's fault index, stopped, with
a failing tag and another Sector In withheld; and one above it, cut, which is the last of its job, and what the step
leaves there. -/
theorem test_witness_discardedCompletion :
    let j (k : Nat) (why : EndReason) : Job :=
      { freshJob (fields .decipher 2) 0 (.cipher 0) with
        state := .ending k why, nextToReceive := 2, sectorsInPipes := 1 }
    let s (k : Nat) (why : EndReason) : State :=
      withJob (j k why)
        (inPipe (passing tagKey .decipher) { use := .inPipe, data := zeros 512, tag := none })
    (s 1 (.stop .overrun)).powered = true ∧
      ({ s 1 (.stop .overrun) with withheld := some { tag := 1, data := [], stored := none } } :
        State).pipes[(2 : PipeId)].pass = some (passing tagKey .decipher) ∧
      (s 1 (.stop .overrun)).jobs[(passing tagKey .decipher).tag] = some (j 1 (.stop .overrun)) ∧
      1 ≤ (passing tagKey .decipher).index ∧
      (s 0 (.cut .cutLock)).jobs[(passing tagKey .decipher).tag] = some (j 0 (.cut .cutLock)) ∧
      0 ≤ (passing tagKey .decipher).index ∧
      ∃ t, exec (.pipeCompletion 2) (s 0 (.cut .cutLock)) = .next t ∧ t.jobs[(0 : TagId)] = none ∧
        t.buffers[(0 : BufferId)].use = .free ∧ t.slots[(0 : SlotId)].usage = 1 ∧
        t.outControl.length = 1 :=
  ⟨by decide +kernel, by decide +kernel, by decide +kernel, by decide, by decide +kernel, by decide, _, rfl,
    by decide +kernel⟩

/-- The hypotheses of FailedTagFollowsMask: a buffer without a tag fails its check, under either entry. -/
theorem test_witness_failedTag :
    (inPipe (passing tagKey .decipher) { use := .inPipe, data := zeros 512, tag := none }).withheld = none ∧
      (inPipe (passing tagKey .decipher) { use := .inPipe, data := zeros 512, tag := none }).jobs[(0 : TagId)] =
        some { freshJob (fields .decipher 2) 0 (.cipher 0) with nextToReceive := 2, sectorsInPipes := 1 } ∧
      0 < (passing tagKey .decipher).index ∧ (passing tagKey .decipher).mode = .tagged ∧
      (none : Option SectorTag) ≠ some (Config.sectorTag .k512 1 { lba := 1, ns := 0 } []) ∧
      live.policy.maskTagMismatch = .stop ∧
      ({ live with policy := { Policy.default with maskTagMismatch := .fill } } :
        Extent).policy.maskTagMismatch = .fill :=
  ⟨rfl, by decide +kernel, by decide, rfl, nofun, rfl, rfl⟩

/-- The hypotheses of FailedTagFollowsMask for a job stopped above the sector, whose next to emit is that sector,
and with another Sector In withheld. -/
theorem test_witness_failedTagOfEndingJob :
    let j : Job :=
      { freshJob (fields .decipher 2) 0 (.cipher 0) with
        state := .ending 2 (.stop .overrun), nextToReceive := 2, nextToEmit := 1, sectorsInPipes := 1 }
    let s : State :=
      { withJob j (inPipe (passing tagKey .decipher) { use := .inPipe, data := zeros 512, tag := none }) with
        withheld := some { tag := 1, data := [], stored := none } }
    s.powered = true ∧ s.pipes[(2 : PipeId)].pass = some (passing tagKey .decipher) ∧
      s.jobs[(passing tagKey .decipher).tag] = some j ∧ (passing tagKey .decipher).index < 2 ∧
      j.nextToEmit ≤ (passing tagKey .decipher).index ∧ (passing tagKey .decipher).index < j.count ∧
      s.extents[j.extent] = some live := by decide +kernel

def holding : Job :=
  { job with nextToReceive := 2, hold := [{ index := 0, buffer := 0, fill := false }] }

def closing : Job :=
  { job with
    nextToReceive := 2, nextToEmit := 1, hold := [{ index := 1, buffer := 0, fill := false }] }

/-- The hypotheses of ReadySectorOutIsEmitted: a held result, an owed fill, nothing ready; the last index of an
ACTIVE job, and of an ENDING one the last below its fault index and none at it. -/
theorem test_witness_sectorOut :
    (withJob holding running).jobs[(0 : TagId)] = some holding ∧
      (holding.hold.find? fun h => decide (h.index = holding.nextToEmit)) =
        some { index := 0, buffer := 0, fill := false } ∧ holding.nextToEmit + 1 < holding.count ∧
      ({ freshJob (fields .decipher 2) 0 (.fill .locked) with nextToReceive := 1 } : Job).nextToReceive = 1 ∧
      (∀ h ∈ job.hold, h.index ≠ job.nextToEmit) ∧ running.extents[job.extent] = some live ∧
      (closing.state = .active ∧ closing.nextToEmit + 1 = closing.count ∧
        (closing.hold.find? fun h => decide (h.index = closing.nextToEmit)) =
          some { index := 1, buffer := 0, fill := false }) ∧
      ({ holding with state := .ending 1 (.stop .format) } : Job).nextToEmit < 1 ∧
      1 ≤ ({ closing with state := .ending 1 (.stop .format) } : Job).nextToEmit := by
  decide +kernel

/-- The hypotheses of WithheldSectorTakesFreedBuffer, the withheld sector of the job that emits. -/
theorem test_witness_withheld :
    ({ withJob holding running with withheld := some { tag := 0, data := [], stored := none } } :
        State).withheld = some { tag := 0, data := [], stored := none } ∧
      holding.state = .active ∧ holding.mode = .cipher 0 ∧ holding.nextToEmit + 1 < holding.count := by
  decide +kernel

/-- The hypotheses of LastSectorOutClosesJob. -/
theorem test_witness_lastSector :
    (withJob closing running).power = .run ∧ (withJob closing running).withheld = none ∧
      closing.state = .active ∧ closing.mode = .cipher 0 ∧ closing.substituted = 0 ∧
      closing.sectorsInPipes = 0 ∧ closing.nextToEmit + 1 = closing.count ∧
      (closing.hold.find? fun h => decide (h.index = closing.nextToEmit)) =
        some { index := 1, buffer := 0, fill := false } ∧
      running.slots[(0 : SlotId)].state = .ready 0 key ∧
      jobsNaming closing.extent (withJob closing running) = 1 := by decide +kernel

/-- An ERASE whose void write is verified and that waits for the slot of the job that closes. -/
def drainingFor : State :=
  { withJob closing running with
    extents := running.extents.set 0 (some { live with key := .erased })
    slots := running.slots.set 0 { Slot.empty with state := .draining key, pins := 1 }
    executing :=
      some
        { seq := 9
          request := .erase 0 (some 0)
            (some { outcome := .verified
                    facts := { writeBegun := true, finalStopSent := true, verified := true } }) } }

/-- The hypotheses of the DRAINING clause of LastSectorOutClosesJob, and what the step answers there. -/
theorem test_witness_lastSectorOfDrain :
    drainingFor.power = .run ∧ drainingFor.slots[(0 : SlotId)].state = .draining key ∧
      jobsNaming closing.extent drainingFor = 1 ∧
      ((stepOf (.sectorOut 0) drainingFor).map fun t =>
        (t.slots[(0 : SlotId)], t.executing.isSome, t.outControl.length, t.outControl.getLast?)) =
        some (Slot.empty, false, 2,
          some (.answer { code := 0x0C, seq := 9, result := .ok
                          items := [item1 0x51 2, item1 0x57 0, item1 0x60 3] })) := by
  decide +kernel

/-- A job of which nothing is left. -/
def done : Job := { closing with nextToEmit := 2, hold := [] }

/-- The end of a void write, by its outcome. -/
def voided (o : WriteOutcome) : WriteEnd :=
  { outcome := o, facts := { writeBegun := true, finalStopSent := true, verified := decide (o = .verified) } }

/-- A part in which the last job of a DRAINING slot has nothing left, and an ERASE waits for the drain. -/
def drainDone (w : Option WriteEnd) : State :=
  { withJob done drainingFor with executing := some { seq := 9, request := .erase 0 (some 0) w } }

/-- The hypotheses of the closing clauses of LastSectorOutClosesJob: a job with something left, one with nothing
left of a READY slot, and one whose slot drains, with an ERASE whose write is under way or has ended in each of the
three ways. -/
theorem test_witness_closing :
    ¬emittedAll closing ∧ emittedAll done ∧ emittedAll { job with state := .ending 0 (.cut .cutLock) } ∧
      drainOf done (withJob done running) = none ∧ (withJob done running).jobs[(0 : TagId)] = some done ∧
      (withJob done running).extents[done.extent] = some live ∧
      (∀ w, w ∈ [none, some (voided .verified), some (voided .differs), some (voided (.failed .lost))] →
        drainOf done (drainDone w) = some 0 ∧ (drainDone w).jobs[(0 : TagId)] = some done ∧
        (drainDone w).extents[done.extent] = some { live with key := .erased } ∧
        (drainDone w).executing = some { seq := 9, request := .erase 0 (some 0) w }) := by
  refine ⟨by rw [← finished_iff]; decide, by rw [← finished_iff]; decide,
    by rw [← finished_iff]; decide, ?_⟩
  decide +kernel

/-- A part with a job under tag 0 whose two sectors are listed, a job of namespace 0's other extent under tag 1, and
a Sector In withheld. -/
def crowded (t : TagId) : State :=
  { withJob { job with nextToReceive := 2 } running with
    jobs := (withJob { job with nextToReceive := 2 } running).jobs.set 1 (some { job with extent := 1 })
    ready := [{ tag := 0, index := 0, buffer := 3 }, { tag := 0, index := 1, buffer := 4 }]
    withheld := some { tag := t, data := [], stored := none } }

/-- The hypotheses of CutEndsNamedJobs: a test that does not read next to receive; nothing withheld, and a Sector In
withheld of a job that is cut, of one that is not while buffers are freed, and while none is. -/
theorem test_witness_cut :
    let named (e : ExtentId) (j : Job) : Bool := decide (j.extent = e)
    (∀ e j n, named e { j with nextToReceive := n } = named e j) ∧
      (withJob job running).withheld = none ∧ (withJob job running).jobs[(0 : TagId)] = some job ∧
      running.jobs[(1 : TagId)] = none ∧ (crowded 0).executing = none ∧
      (newlyCut (named 0) { job with nextToReceive := 2 } = true ∧
        (crowded 0).jobs[(0 : TagId)] = some { job with nextToReceive := 2 }) ∧
      ((crowded 1).jobs[(1 : TagId)] = some { job with extent := 1 } ∧
        named 0 { job with extent := 1 } = false ∧ cutBuffers (named 0) (crowded 1) = [3, 4]) ∧
      (named 1 job = false ∧ cutBuffers (named 1) (crowded 0) = []) ∧
      (cutCloses (named 0) .cutLock (crowded 0) 0).isSome = true :=
  ⟨fun _ _ _ => rfl, by decide +kernel⟩

def erasing (l : LinkMaster) : State :=
  executing (.erase 0 none none) l (part (locked .erased) Slot.empty)

/-- The hypotheses of RequestsNotAcceptedAreAnswered. -/
theorem test_witness_notAccepted :
    (erasing State.reset.link).powered = true ∧ (erasing State.reset.link).executing.isSome = true ∧
      State.reset.executing = none ∧ State.reset.power = .starting := by decide +kernel

/-- The hypotheses of MalformedAndUnknownAreFormat: each way of being malformed, at its boundary. -/
theorem test_witness_malformed :
    malformed .erase (req 24 [item1 0x25 1]) ∧ malformed .querySlot (req 32 []) ∧
      malformed .erase (req 0 [item1 0x25 1, item1 0x26 1]) ∧
      malformed .erase (req 0 [item1 0x25 1, item1 0x25 1]) ∧ malformed .erase (req 0 []) ∧
      malformed .erase (req 0 [{ code := 0x25, value := [1, 0] }]) ∧
      malformed .erase (req 0 [item1 0x25 3]) ∧ malformed .setTick (req 0xFF []) :=
  ⟨Or.inl ⟨24, rfl, by decide⟩, Or.inl ⟨32, rfl, by decide⟩, Or.inr (Or.inl (by decide)),
    Or.inr (Or.inr (Or.inl (by decide))), Or.inr (Or.inr (Or.inr (Or.inl (by decide)))),
    Or.inr (Or.inr (Or.inr (Or.inr (Or.inl
      ⟨{ code := 0x25, value := [1, 0] }, by simp [req], by simp [sizeOfItem]⟩)))),
    Or.inr (Or.inr (Or.inr (Or.inr (Or.inr (Or.inl
      ⟨item1 0x25 3, by simp [req], by simp [itemInRange, item1, beNat]⟩))))),
    Or.inr (Or.inr (Or.inr (Or.inr (Or.inr (Or.inr ⟨rfl, by decide⟩)))))⟩

def credentialItem (c : Byte) : Item := { code := c, value := zeros 32 }

/-- The hypotheses of RequestFieldsAreRead, and the operands of the request statements. -/
theorem test_witness_operands :
    (namespaceArgs? (req 0 [itemN 0x02 6 1000, item1 0x03 0, item1 0x04 5]) =
        some { ns := 0, size := 1000, sectorSize := .b512, handle := 5 }) ∧
      (defineArgs? (req 4 [item1 0x01 0, item1 0x04 6, itemN 0x05 5 0, itemN 0x06 5 999])).isSome = true ∧
      extentOnly? (req 23 []) = some 23 ∧ slotOnly? (req 31 []) = some 31 ∧
      (policyArgs? (req 0 [item1 0x10 15])).isSome = true ∧
      (unlockArgs? (req 0 [credentialItem 0x20, item1 0x23 3]) =
        some { extent := 0, credential := 0, dirs := { read := true, write := true } }) ∧
      (lockArgs? (req 0 [item1 0x23 1, item1 0x24 1, item1 0x25 2]) =
        some { extent := 0, dirs := { read := true, write := false }, forget := true, cut := true }) ∧
      (rewrapArgs? (req 0 [credentialItem 0x21, credentialItem 0x22]) =
        some { extent := 0, old := 0, new := 0 }) ∧
      eraseArgs? (req 0 [item1 0x25 1]) = some { extent := 0, cut := false } ∧
      (generateArgs? (req 0 [credentialItem 0x20, item1 0x23 3, item1 0x26 2, item1 0x27 1]) =
        some
          { extent := 0, credential := 0, size := .k512, mode := .tweak
            dirs := { read := true, write := true } }) ∧
      (linkArgs? (req 0xFF [item1 0x34 0])).isSome = true ∧
      (tickArgs? (req 0xFF [item1 0x38 8])).isSome = true ∧
      clearArgs? (req 0xFF [{ code := 0x40, value := [1, 13] }]) = some [.coldStart, .jobFault] ∧
      (enableArgs? (req 0xFF [{ code := 0x41, value := [8, 1] }]) = some [(.idleNotice, true)]) := by
  decide +kernel

/-- What makes a request whole, item by item. -/
theorem whole_of {n : RequestName} {r : Request}
    (hi : ∀ i ∈ r.items, sizeOfItem i.code.toNat i.value.length ∧ itemInRange i.code.toNat i.value)
    (hc : (∀ i ∈ r.items, i.code.toNat ∈ requiredItems n ++ optionalItems n) ∧
      (∀ c ∈ requiredItems n, ∃ i ∈ r.items, i.code.toNat = c) ∧
      (r.items.map fun i => i.code.toNat).Pairwise (· < ·) ∧ (r.items.map Item.code).Nodup ∧
      (∀ b, targetBound n = some b → r.target.toNat < b) ∧ (targetBound n = none → r.target = 0xFF) ∧
      (r.items = [] → n ≠ .setPolicy ∧ n ≠ .setLink ∧ n ≠ .setTick)) : whole n r := by
  obtain ⟨h1, h2, h3, h4, h5, h6, h7⟩ := hc
  refine ⟨?_, h3, h6⟩
  rintro (⟨b, hb, hle⟩ | ⟨i, hm, h⟩ | h | ⟨c, hm, h⟩ | ⟨i, hm, h⟩ | ⟨i, hm, h⟩ | ⟨h, h'⟩)
  · exact absurd (h5 b hb) (by omega)
  · exact h (h1 i hm)
  · exact h h4
  · obtain ⟨i, hi, he⟩ := h2 c hm
    exact h i hi he
  · exact h (hi i hm).1
  · exact h (hi i hm).2
  · obtain ⟨a, b, c⟩ := h7 h
    rcases h' with h' | h' | h' <;> contradiction

/-- The hypotheses of the converse of RequestFieldsAreRead: a whole request of each name, its fields and its target
at bounds of their ranges. -/
theorem test_witness_whole :
    whole .identify (req 0xFF []) ∧ whole .readEvents (req 0xFF []) ∧
      whole .setNamespace (req 3 [itemN 0x02 6 (2 ^ 40), item1 0x03 1, item1 0x04 63]) ∧
      whole .defineExtent
        (req 23 [item1 0x01 3, item1 0x04 0, itemN 0x05 5 0, itemN 0x06 5 1, item1 0x10 15,
          itemN 0x19 2 4095]) ∧
      whole .retireExtent (req 23 []) ∧ whole .queryExtent (req 0 []) ∧
      whole .setPolicy (req 23 [item1 0x10 1, item1 0x1D 1]) ∧ whole .querySlot (req 31 []) ∧
      whole .unlock (req 23 [credentialItem 0x20, item1 0x23 3]) ∧
      whole .lock (req 0 [item1 0x23 1, item1 0x24 1, item1 0x25 2]) ∧
      whole .rewrap (req 0 [credentialItem 0x21, credentialItem 0x22]) ∧
      whole .erase (req 23 [item1 0x25 2]) ∧
      whole .generate (req 0 [credentialItem 0x20, item1 0x23 1, item1 0x26 2, item1 0x27 1]) ∧
      whole .setLink (req 0xFF [item1 0x31 0x7F, item1 0x32 64, item1 0x33 250]) ∧
      whole .setTick (req 0xFF [item1 0x38 8, item1 0x39 255]) ∧
      whole .clearEvents (req 0xFF [{ code := 0x40, value := [1, 13] }]) ∧
      whole .setEventEnables (req 0xFF [{ code := 0x41, value := [13, 1] }]) := by
  refine ⟨?_, ?_, ?_, ?_, ?_, ?_, ?_, ?_, ?_, ?_, ?_, ?_, ?_, ?_, ?_, ?_, ?_⟩ <;>
    refine whole_of ?_ (by decide +kernel)
  all_goals simp [req, sizeOfItem, itemInRange, item1, itemN, credentialItem, zeros, beNat, beBytes]
  exact fun i j h1 h2 => absurd h1 (by omega)

/-- The hypotheses of IdentifyReports, ReadEventsShowsAndMarks, ClearEventsClearsReported and
SetEventEnablesWritesCarried, in a part that is not in RUN. -/
theorem test_witness_listens :
    Listens State.reset ∧ State.reset.power = .starting ∧ (req 0xFF []).target = 0xFF ∧
      AttnFollowsFlags { running with power := .hold } := by
  unfold Listens AttnFollowsFlags
  decide +kernel

/-- The hypotheses of the FORMAT clauses of ClearEventsClearsReported and SetEventEnablesWritesCarried: an empty
list, flag code 14, and a flag named twice. -/
theorem test_witness_malformedEvents :
    Listens State.reset ∧ malformed .clearEvents (req 0xFF [{ code := 0x40, value := [] }]) ∧
      malformed .clearEvents (req 0xFF [{ code := 0x40, value := [14] }]) ∧
      malformed .setEventEnables (req 0xFF [{ code := 0x41, value := [8, 1, 8, 0] }]) :=
  ⟨test_witness_listens.1,
    Or.inr (Or.inr (Or.inr (Or.inr (Or.inl ⟨_, List.mem_singleton.2 rfl, by simp [sizeOfItem]⟩)))),
    Or.inr (Or.inr (Or.inr (Or.inr (Or.inr (Or.inl
      ⟨_, List.mem_singleton.2 rfl, by simp [itemInRange]⟩))))),
    Or.inr (Or.inr (Or.inr (Or.inr (Or.inr (Or.inl
      ⟨_, List.mem_singleton.2 rfl, fun h => h.2 0 1 (by decide) (by decide) rfl⟩)))))⟩

/-- The hypotheses of SetNamespaceByItsTables: a namespace in use, one that is LIVE, one that is free. -/
theorem test_witness_setNamespace :
    Accepts running ∧ running.extents[globalOf 0] = some live ∧ live.key = .live 0 ∧
      (withJob job running).jobs[(0 : TagId)] = some job ∧ job.ns = 0 ∧
      running.namespaces[(1 : NamespaceId)].size = 0 :=
  ⟨running_accepts, by decide +kernel⟩

def withExtent (e : ExtentId) (x : Extent) (s : State) : State :=
  { s with extents := s.extents.set e (some x) }

def defined : Extent := newExtent 0 (some { first := 10, last := 19 }) 6 Policy.default

/-- The hypotheses of the lookup of OpenerRefusedByTheFirstCheck: the first and the last LBA of a defined extent,
and the LBA before it, which none contains. -/
theorem test_witness_lookup :
    (withExtent 4 defined running).extents[(4 : ExtentId)] = some defined ∧ defined.ns = 0 ∧
      defined.span = some { first := 10, last := 19 } ∧
      extentAt 0 10 (withExtent 4 defined running) = 4 ∧
      extentAt 0 19 (withExtent 4 defined running) = 4 ∧
      spanWithin 0 10 19 (withExtent 4 defined running) = true ∧
      spanWithin 0 10 20 (withExtent 4 defined running) = false ∧
      (∀ e : ExtentId, ∀ x ∈ (withExtent 4 defined running).extents[e], x.ns = 0 →
        ∀ q ∈ x.span, ¬(q.first ≤ 9 ∧ 9 ≤ q.last)) ∧
      extentAt 0 9 (withExtent 4 defined running) = globalOf 0 ∧
      spanWithin 0 9 9 (withExtent 4 defined running) = true ∧
      spanWithin 0 9 10 (withExtent 4 defined running) = false ∧
      extentAt 0 20 (withExtent 4 defined running) = globalOf 0 := by decide +kernel

/-- The hypotheses of DefineExtentByItsTable and RetireExtentByItsTable, and one of each of their clauses. -/
theorem test_witness_defineAndRetire :
    Accepts running ∧ (3 : ExtentId).val < 4 ∧ 4 ≤ (4 : ExtentId).val ∧
      running.extents[(4 : ExtentId)] = none ∧
      (withExtent 4 defined running).extents[(4 : ExtentId)] = some defined ∧
      running.namespaces[(1 : NamespaceId)].size = 0 ∧ 999 < running.namespaces[(0 : NamespaceId)].size ∧
      defined.key.isLive = false ∧ job.firstLba ≤ 1 :=
  ⟨running_accepts, by decide +kernel⟩

/-- The hypotheses of SetPolicyByItsTables: barred, a limit at the try count, a LIVE extent, a usage limit at the
counter. -/
theorem test_witness_setPolicy :
    Accepts running ∧ ({ live with barred := true } : Extent).barred = true ∧
      ({ live with tryCount := 3 } : Extent).tryCount = 3 ∧ running.extents[(0 : ExtentId)] = some live ∧
      live.key = .live 0 ∧ ({ slotWith 0 key 0 with usage := 9 } : Slot).worn = false :=
  ⟨running_accepts, by decide +kernel⟩

/-- The hypotheses of QueriesReport: a FREE and a DEFINED record. -/
theorem test_witness_queries :
    Accepts running ∧ extentOnly? (req 1 []) = some 1 ∧ running.extents[(1 : ExtentId)] = none ∧
      running.extents[(0 : ExtentId)] = some live :=
  ⟨running_accepts, by decide +kernel⟩

theorem part_accepts (k : KeyStatus) : Accepts (part (locked k) Slot.empty) := by
  unfold Accepts Listens
  exact ⟨⟨rfl, rfl⟩, rfl⟩

/-- The hypotheses of UnlockBegins, RewrapBegins and GenerateBegins in their clauses: extents that are FREE,
barred, ERASED, NONE and LIVE; all slots in use, and slot 0 the lowest EMPTY one; the source not ready. -/
theorem test_witness_keyRequests :
    Accepts (part (locked .none) Slot.empty) ∧ Accepts (part (locked .erased) Slot.empty) ∧
      Accepts running ∧ running.extents[(1 : ExtentId)] = none ∧
      (part (locked .none) Slot.empty).slots[(0 : SlotId)].state = .empty ∧
      (∀ i : SlotId, i < 0 → (part (locked .none) Slot.empty).slots[i].state ≠ .empty) ∧
      (∀ k : SlotId, ({ running with slots := Vector.replicate 32 (slotWith 0 key 0) } :
        State).slots[k].state ≠ .empty) ∧
      (part (locked .erased) Slot.empty).random.state = .ready ∧ State.reset.random.state ≠ .ready :=
  ⟨part_accepts _, part_accepts _, running_accepts, by decide +kernel⟩

/-- The hypotheses of LockIsCarriedOut and EraseBegins. -/
theorem test_witness_lockAndErase :
    Accepts running ∧ running.extents[(0 : ExtentId)] = some live ∧ boundSlot 0 live running := by
  refine ⟨running_accepts, by decide +kernel, ?_⟩
  intro k h
  have : k = 0 := by simpa [live] using h.symm
  subst this
  exact ⟨key, by decide +kernel⟩

/-- The record built for a key under a credential is judged sound at its handle. -/
theorem test_soundRecord :
    judgeRecord 0 5 (buildRecord 0 0 5 key) = .sound key := by
  have h : (buildRecord 0 0 5 key).tag = tagUnder 0 (buildRecord 0 0 5 key) := rfl
  have hk : unwrapKey 0 (buildRecord 0 0 5 key) .k512 .tweak = key := by
    simp [unwrapKey, buildRecord, fitKey, key]
  unfold judgeRecord
  rw [if_neg (show ¬(buildRecord 0 0 5 key).marker = 0x00 by decide),
    if_neg (show ¬(buildRecord 0 0 5 key).marker ≠ validMarker from fun c => c rfl),
    if_neg (show ¬(buildRecord 0 0 5 key).handleEcho.toNat ≠ (5 : Handle).val from fun c => c rfl)]
  show (if _ then Verdict.sound (unwrapKey 0 (buildRecord 0 0 5 key) .k512 .tweak)
    else Verdict.badCredential) = _
  rw [if_pos h, hk]

/-- The hypotheses of RecordsAreJudgedInOrder: a marker, a size and a mode of each kind, and a key that fits. -/
theorem test_witness_records :
    voidRecord.marker = 0x00 ∧ ({ voidRecord with marker := 1 } : KeyRecord).marker ≠ 0x00 ∧
      (buildRecord 0 0 5 key).marker = 0xA5 ∧ (buildRecord 0 0 5 key).handleEcho.toNat ≠ (6 : Handle).val ∧
      (buildRecord 0 0 5 key).handleEcho.toNat = (5 : Handle).val ∧ (buildRecord 0 0 5 key).keySize = 0x02 ∧
      ({ buildRecord 0 0 5 key with keySize := 3 } : KeyRecord).keySize = 3 ∧
      (buildRecord 0 0 5 key).tag =
        Config.recordTag (Config.deriveWrappingKey Config.deviceSecret 0 0)
          (coveredBytes (buildRecord 0 0 5 key)) ∧
      fitKey key.size key.block = key.block :=
  ⟨rfl, by decide, rfl, by decide, rfl, rfl, rfl, rfl, rfl⟩

def lastStop (kind : TransactionKind) (o : Option WriteOperation) : LinkMaster :=
  linkAt .stop (.dataByte 100) kind o

/-- The hypotheses of UnlockEndsByItsVerdict, with the verdicts its clauses name. -/
theorem test_witness_unlockEnds :
    inProgress .readRecord { freshContext .readRecord 5 [] with position := .dataByte 100 } .finalStop
        (unlocking (lastStop .readRecord none)) ∧
      (unlocking (lastStop .readRecord none)).link.operation = none ∧
      (unlocking (lastStop .readRecord none)).context.credential = some 0 ∧
      (unlocking (lastStop .readRecord none)).extents[(0 : ExtentId)] = some (locked .none) ∧
      judgeRecord 0 5 (buildRecord 0 0 5 key) = .sound key ∧ judgeRecord 0 5 voidRecord = .keyVoid ∧
      judgeRecord 0 5 { voidRecord with marker := 1 } = .recordBad ∧
      judgeRecord 0 5
        { buildRecord 0 0 5 key with tag := (buildRecord 0 0 5 key).tag + 1 } = .badCredential := by
  refine ⟨?_, rfl, rfl, by decide +kernel, test_soundRecord, rfl, rfl, ?_⟩
  · unfold inProgress
    decide +kernel
  · unfold judgeRecord
    refine (if_neg (by decide)).trans ((if_neg fun c => c rfl).trans ((if_neg fun c => c rfl).trans ?_))
    have hne (t : BitVec 128) : t + 1 ≠ t := fun h => by simpa using congrArg (· - t) h
    exact if_neg (hne (buildRecord 0 0 5 key).tag)

def rewrapping (proven : Bool) (l : LinkMaster) : State :=
  { executing (.rewrap 0 proven) l running with
    context := { WorkingContext.empty with credential := some 0, newCredential := some 1 } }

/-- The hypotheses of RewrapProofStartsItsWrite, with the source READY and not. -/
theorem test_witness_rewrapProof :
    inProgress .readRecord { freshContext .readRecord 5 [] with position := .dataByte 100 } .finalStop
        (rewrapping false (lastStop .readRecord none)) ∧
      (rewrapping false (lastStop .readRecord none)).random.state = .ready ∧
      ({ rewrapping false (lastStop .readRecord none) with
        random := { state := .warming, warmUp := 0 } } : State).random.state ≠ .ready ∧
      judgeRecord 0 5 (buildRecord 0 0 5 key) = .sound key := by
  refine ⟨?_, rfl, by decide +kernel, test_soundRecord⟩
  unfold inProgress
  decide +kernel

/-- The hypotheses of the NACK_DATA clause of WriteOperationIsReadBack: at its first and last bytes, and in the stop
after the last one, but not in the final stop. -/
theorem test_witness_nackedWrite :
    canMissAck (linkAt .send .handleByte .writeRecord (some operation))
        { freshContext .writeRecord 5 [] with position := .handleByte } .handleByte = true ∧
      canMissAck (linkAt .send .handleByte .writeRecord (some operation))
        { freshContext .writeRecord 5 [] with position := .handleByte } (.dataByte 99) = true ∧
      canMissAck (linkAt .stop (.dataByte 100) .writeRecord (some operation))
        { freshContext .writeRecord 5 [] with position := .dataByte 100, stopCause := .nack }
        (.dataByte 99) = true ∧
      canMissAck (linkAt .stop (.dataByte 100) .writeRecord (some operation))
        { freshContext .writeRecord 5 [] with position := .dataByte 100 } (.dataByte 99) = false ∧
      operation.verified = false ∧
      (erasing (linkAt .send .handleByte .writeRecord (some operation))).extents[(0 : ExtentId)] =
        some (locked .erased) := by
  decide +kernel

/-- A record whose first and last bytes have 1 bits. -/
def bitRecord : KeyRecord := { voidRecord with marker := 0xA5, tag := 1 }

/-- The hypotheses of WriteOperationIsReadBack: the write at its final stop, the read-back at its own, for each
of the three requests, with bytes that are equal and that differ. -/
theorem test_witness_writeOperation :
    inProgress .writeRecord { freshContext .writeRecord 5 [] with position := .dataByte 100 } .finalStop
        (erasing (lastStop .writeRecord (some operation))) ∧
      inProgress .readRecord { freshContext .readRecord 5 [] with position := .dataByte 100 } .finalStop
        (erasing (lastStop .readRecord (some operation))) ∧
      operation.writeBegun = true ∧ operation.verified = false ∧ voidRecord = operation.bytes ∧
      { voidRecord with marker := 1 } ≠ operation.bytes ∧
      completeRecord (freshContext .readRecord 5 []) voidRecord = operation.bytes ∧
      completeRecord (freshContext .readRecord 5 (recordBytes voidRecord)) bitRecord = operation.bytes ∧
      completeRecord (freshContext .readRecord 5 [0, 0, 0]) { voidRecord with marker := 1 } = operation.bytes ∧
      completeRecord (freshContext .readRecord 5 [1]) voidRecord ≠ operation.bytes ∧
      (executing (.generate 0 { read := true, write := false } 0) (lastStop .readRecord (some operation))
        { part (locked .erased) { Slot.empty with state := .loading 0 } with
          context := { WorkingContext.empty with key := some key } }).context.key = some key ∧
      (rewrapping true (lastStop .readRecord (some operation))).executing =
        some { seq := 7, request := .rewrap 0 true } := by
  unfold inProgress
  decide +kernel

/-- The hypotheses of LinkFailureEndsUnlock, clause by clause: an address, the handle byte, a byte received, a
wait for the link, a fourth loss in each element that the part checks, and the two stops. -/
theorem test_witness_linkFailure :
    (unlocking (linkAt .start .address .readRecord none)).power = .run ∧
      (∀ p ∈ [LinkPoint.openingStart, .writeAddress, .handleByte, .repeatedStart, .readAddress],
        canMeet (linkAt .start .address .readRecord none) (freshContext .readRecord 5 []) p = true ∧
          checksLine (linkAt .start .address .readRecord none) (freshContext .readRecord 5 []) p =
            true) ∧
      (∀ p ∈ [LinkPoint.addressStop, .nackStop, .receiveByte 99, .finalStop],
        canMeet (linkAt .start .address .readRecord none) (freshContext .readRecord 5 []) p = true) ∧
      canMeet (linkAt .send .handleByte .readRecord none)
        { freshContext .readRecord 5 [] with position := .handleByte } .nackStop = true ∧
      canMissAck (linkAt .send .handleByte .readRecord none)
        { freshContext .readRecord 5 [] with position := .handleByte } .handleByte = true ∧
      ({ linkAt .waitFree .address .readRecord none with freeWait := some 50 } :
        LinkMaster).freeWait.isSome = true ∧
      ({ freshContext .readRecord 5 [] with lossCount := 3, addressAttempts := 23 } :
        Transaction).lossCount = 3 := by decide +kernel

/-- A Link Master at a place, of a kind, with a transaction whose counts and record are given. -/
def counted (st : LinkState) (p : Position) (kind : TransactionKind) (losses attempts : Nat)
    (r : Bytes) (o : Option WriteOperation) : LinkMaster :=
  { linkAt st p kind o with
    freeWait := if st = .waitFree then some 50 else none
    transaction := some
      { freshContext kind 5 r with position := p, lossCount := losses, addressAttempts := attempts } }

/-- The five forms of failsBy, for a READ RECORD of an UNLOCK, of a REWRAP before its proof and of a read-back, and
for a WRITE RECORD: the hypotheses on failures of LinkFailureEndsUnlock, RewrapProofStartsItsWrite and
WriteOperationIsReadBack. Stretches and collisions in the stop after the 24th address and after a byte, a fourth loss
in a sent byte, and a handle byte. -/
theorem test_witness_failsBy :
    (∃ f, failsBy (unlocking (counted .start .address .readRecord 0 23 [] none))
        { freshContext .readRecord 5 [] with addressAttempts := 23 } .addressNotAcknowledged f) ∧
      (∃ f, failsBy (rewrapping false (counted .send .handleByte .readRecord 0 0 [] none))
        { freshContext .readRecord 5 [] with position := .handleByte } (.nackData .handleByte) f) ∧
      (∃ f, failsBy
        (erasing (counted .send (.dataByte 1) .writeRecord 0 0 (recordBytes bitRecord) (some operation)))
        { freshContext .writeRecord 5 (recordBytes bitRecord) with position := .dataByte 1 }
        (.nackData (.dataByte 99)) f) ∧
      (∃ f, failsBy (rewrapping true (counted .stop (.dataByte 100) .readRecord 0 0 [] (some operation)))
        { freshContext .readRecord 5 [] with position := .dataByte 100 } (.stretchTimeout .finalStop) f ∧
          f.code = .stretchTimeout) ∧
      (∃ f, failsBy (unlocking (counted .start .address .readRecord 0 23 [] none))
        { freshContext .readRecord 5 [] with addressAttempts := 23 } (.stretchTimeout .addressStop) f ∧
          f.code = .noDevice) ∧
      (∃ f, failsBy (rewrapping true (counted .waitFree .address .writeRecord 0 0 [] (some operation)))
        (freshContext .writeRecord 5 []) .freeWaitExpiry f) ∧
      (∃ f, failsBy
        (erasing (counted .send (.dataByte 1) .writeRecord 0 0 (recordBytes bitRecord) (some operation)))
        { freshContext .writeRecord 5 (recordBytes bitRecord) with position := .dataByte 1 }
        (.collision .nackStop voidRecord) f ∧ f.code = .nackData) ∧
      (∃ f, failsBy (unlocking (counted .start .address .readRecord 0 23 [] none))
        { freshContext .readRecord 5 [] with addressAttempts := 23 }
        (.collision .addressStop voidRecord) f ∧ f.code = .noDevice) ∧
      (∃ f, failsBy
        (erasing (counted .send (.dataByte 1) .writeRecord 3 0 (recordBytes bitRecord) (some operation)))
        { freshContext .writeRecord 5 (recordBytes bitRecord) with position := .dataByte 1, lossCount := 3 }
        (.collision (.dataByte 99) voidRecord) f ∧ f.code = .lost) := by
  refine ⟨⟨_, by decide +kernel, rfl, .inl ⟨rfl, by decide +kernel, rfl, rfl⟩⟩,
    ⟨_, by decide +kernel, rfl, .inr (.inl ⟨_, rfl, by decide +kernel, rfl⟩)⟩,
    ⟨_, by decide +kernel, rfl, .inr (.inl ⟨_, rfl, by decide +kernel, rfl⟩)⟩,
    ⟨_, ⟨by decide +kernel, rfl, .inr (.inr (.inl ⟨_, rfl, by decide +kernel, rfl⟩))⟩, rfl⟩,
    ⟨_, ⟨by decide +kernel, rfl, .inr (.inr (.inl ⟨_, rfl, by decide +kernel, rfl⟩))⟩, rfl⟩,
    ⟨_, by decide +kernel, rfl, .inr (.inr (.inr (.inl ⟨rfl, rfl, rfl, rfl⟩)))⟩,
    ⟨_, ⟨by decide +kernel, rfl, .inr (.inr (.inr (.inr
      ⟨_, _, rfl, by decide +kernel, rfl, .inl rfl, nofun, rfl⟩)))⟩, rfl⟩,
    ⟨_, ⟨by decide +kernel, rfl, .inr (.inr (.inr (.inr
      ⟨_, _, rfl, by decide +kernel, rfl, .inr (.inl ⟨rfl, rfl⟩), fun _ => ⟨nofun, nofun⟩, rfl⟩)))⟩, rfl⟩,
    ⟨_, ⟨by decide +kernel, rfl, .inr (.inr (.inr (.inr
      ⟨_, _, rfl, by decide +kernel, by decide +kernel, .inr (.inr rfl), nofun, rfl⟩)))⟩, rfl⟩⟩

/-- The hypotheses of UnacknowledgedAddressIsPolled: attempts below the bound, and a poll wait. -/
theorem test_witness_poll :
    canMeet (linkAt .address .address .writeRecord none) (freshContext .writeRecord 5 []) .addressStop =
        true ∧
      ({ freshContext .writeRecord 5 [] with addressAttempts := 22 } : Transaction).addressAttempts < 23 ∧
      (linkAt .pollWait .address .writeRecord none).state = .pollWait := by decide +kernel

/-- The hypotheses of CollisionLosesOrCompletes: a loss in the last byte of a write, one in the stop after the 23rd
address, a byte without a 1 bit, a byte that a device sends, and a collision after the 100th byte and in the stop of a
read, of an UNLOCK, of a REWRAP before its proof and of a read-back. -/
theorem test_witness_collision :
    (canMeet (linkAt .send .handleByte .writeRecord (some operation))
          (freshContext .writeRecord 5 (recordBytes bitRecord)) (.dataByte 99) = true ∧
        checksLine State.reset.link (freshContext .writeRecord 5 (recordBytes bitRecord)) (.dataByte 99) = true) ∧
      canMeet (linkAt .start .address .readRecord none)
        { freshContext .readRecord 5 [] with addressAttempts := 22, lossCount := 2 } .addressStop = true ∧
      checksLine State.reset.link (freshContext .writeRecord 5 (recordBytes voidRecord)) (.dataByte 0) = false ∧
      checksLine State.reset.link (freshContext .readRecord 5 []) (.receiveByte 98) = false ∧
      checksLine { State.reset.link with settings := { LinkSettings.coldStart with deviceAddress := 0 } }
        (freshContext .readRecord 5 []) .writeAddress = false ∧
      canMeet (linkAt .receive (.dataByte 100) .readRecord none)
        { freshContext .readRecord 5 [] with position := .dataByte 100 } (.receiveByte 99) = true ∧
      canMeet (lastStop .readRecord none)
        { freshContext .readRecord 5 [] with position := .dataByte 100 } .finalStop = true ∧
      (unlocking (lastStop .readRecord none)).executing =
        some { seq := 7, request := .unlock 0 { read := true, write := true } (some 0) } ∧
      (rewrapping false (lastStop .readRecord none)).executing =
        some { seq := 7, request := .rewrap 0 false } ∧
      (erasing (lastStop .readRecord (some operation))).link.operation = some operation := by
  decide +kernel

/-- The bytes the part sends at its cold start device address, 0x3A: 0x74 to write and 0x75 to read. -/
theorem test_addressBytes :
    sentByte State.reset.link (freshContext .readRecord 5 []) .writeAddress = some 0x74 ∧
      sentByte State.reset.link (freshContext .readRecord 5 []) .readAddress = some 0x75 ∧
      sentByte State.reset.link (freshContext .readRecord 63 []) .handleByte = some 63 ∧
      sentByte State.reset.link (freshContext .writeRecord 5 (recordBytes bitRecord)) (.dataByte 0) =
        some 0xA5 := by decide +kernel

/-- In 0x74, 01110100, the last check for a collision is at its fourth 1 bit, step 11; there is none past it, and none
in the acknowledge bit. The address byte still to come has all its checks, and a stop has one to its last step. -/
theorem test_checksOfAByte :
    (∀ step ∈ [0, 3, 11],
        checksLine (linkAt .address .address .readRecord none)
          { freshContext .readRecord 5 [] with phase := step } .writeAddress = true) ∧
      (∀ step ∈ [12, 15, 16, 17],
        checksLine (linkAt .address .address .readRecord none)
            { freshContext .readRecord 5 [] with phase := step } .writeAddress = false ∧
          (stepOf (.collision .writeAddress voidRecord) (unlocking
              { linkAt .address .address .readRecord none with
                transaction := some { freshContext .readRecord 5 [] with phase := step } })).map
            (fun t => t.link.state) = some .address) ∧
      checksLine (linkAt .start .address .readRecord none)
        { freshContext .readRecord 5 [] with phase := 1 } .writeAddress = true ∧
      checksLine (linkAt .stop (.dataByte 100) .readRecord none)
        { freshContext .readRecord 5 [] with position := .dataByte 100, phase := 2 } .finalStop =
          true := by decide +kernel

/-- What the part does to the lines as it sends 0x74, step by step: 0, 1, 1, 1, 0, 1, 0, 0, and the acknowledge bit,
which the device drives. -/
theorem test_linesOfAByte :
    (elementLines State.reset.link (freshContext .readRecord 5 []) .writeAddress).map Lines.ksda =
        [.low, .low, .released, .released, .released, .released, .released, .released, .low, .low,
          .released, .released, .low, .low, .low, .low, .released, .released] ∧
      (elementLines State.reset.link (freshContext .readRecord 5 []) .writeAddress).map Lines.kscl =
        (List.replicate 9 [Drive.low, .released]).flatten := by decide +kernel

/-- The acknowledge bit of a received byte: the 99th is acknowledged, the 100th not, and none while abandoning. -/
theorem test_linesOfReceivedBytes :
    (elementLines State.reset.link (freshContext .readRecord 5 []) (.receiveByte 98))[17]? =
        some { kscl := .released, ksda := .low } ∧
      (elementLines State.reset.link (freshContext .readRecord 5 []) (.receiveByte 99))[17]? =
        some { kscl := .released, ksda := .released } ∧
      (elementLines State.reset.link { freshContext .readRecord 5 [] with abandoning := true }
        (.receiveByte 3))[17]? = some { kscl := .released, ksda := .released } := by decide +kernel

/-- The last step of the second received byte: the byte joins the record behind the first. -/
theorem test_receivedByteIsPlaced :
    (advanceLink (unlocking
      { linkAt .receive (.dataByte 2) .readRecord none with
        transaction := some
          { freshContext .readRecord 5 [7] with position := .dataByte 2, phase := 17 } })).link.transaction =
      some
        { freshContext .readRecord 5 [7, Config.receivedByte 0] with
          position := .dataByte 3, phase := 0 } := rfl

/-- A repeated attempt of a READ RECORD has received nothing, and a WRITE RECORD keeps its bytes. -/
theorem test_restartedRecord :
    (Transaction.restarted (freshContext .readRecord 5 [7, 8])).record = [] ∧
      (Transaction.restarted (freshContext .writeRecord 5 (recordBytes bitRecord))).record =
        recordBytes bitRecord := by decide +kernel

/-- The hypotheses of LinkTrackingFollowsTheLines. -/
theorem test_witness_tracking :
    running.powered = true ∧ running.link.releaseWatch = true ∧
      (linkAt .idle .address .readRecord none).releaseWatch = false := by decide +kernel

/-- The hypotheses of SetLinkWritesCarried: nothing withheld, and a sector withheld while stall is cleared. -/
theorem test_witness_setLink :
    Accepts { withJob { job with sectorsInPipes := 1 } running with
        withheld := some { tag := 0, data := [], stored := none } } ∧
      linkArgs? (req 0xFF [item1 0x34 0]) =
        some
          { rate := none, deviceAddress := none, stretchLimit := none, freeWaitLimit := none
            stallOnFull := some false } ∧
      running.withheld = none ∧ ({ job with sectorsInPipes := 1 } : Job).sectorsInPipes ≠ 0 := by
  unfold Accepts Listens
  decide +kernel

/-- The hypotheses of TicksCountAndRestart: timers COUNTING above 0, at 0, and DISARMED; a period carried and
not. -/
theorem test_witness_ticks :
    running.powered = true ∧ running.timers[(0 : ExtentId)] = .disarmed ∧
      (running.timers.set 0 (.counting 1))[(0 : ExtentId)] = .counting 1 ∧
      (running.timers.set 0 (.counting 0))[(0 : ExtentId)] = .counting 0 ∧
      tickArgs? (req 0xFF [item1 0x39 255]) = some { period := none, drainLimit := some 255 } ∧
      tickArgs? (req 0xFF [item1 0x38 1]) = some { period := some .s1over32, drainLimit := none } := by
  decide +kernel

/-- The hypotheses of ExpiryActsByIdleMode, in both modes. -/
theorem test_witness_expiry :
    (running.timers.set 0 (.counting 0))[(0 : ExtentId)] = .counting 0 ∧
      (part { live with policy := { Policy.default with idleMode := .lockOnce, forgetOnIdle := true } }
        (slotWith 0 key 0)).slots[(0 : SlotId)].state = .ready 0 key ∧
      ({ Policy.default with idleMode := .noticeRepeat } : Policy).idleMode = .noticeRepeat ∧
      running.timers[(0 : ExtentId)] ≠ .counting 0 := by decide +kernel

/-- The hypotheses of RandomSourceWarmsAndFails: below 1023, at 1023, READY and FAILED. -/
theorem test_witness_random :
    State.reset.random.state = .warming ∧ State.reset.random.warmUp + 1 ≠ 1024 ∧
      ({ state := .warming, warmUp := 1023 } : RandomSource).warmUp + 1 = 1024 ∧
      running.random.state ≠ .warming ∧ running.random.state ≠ .failed ∧
      ({ running.random with state := .failed } : RandomSource).state = .failed := by decide +kernel

/-- The hypotheses of ColdStartSetsEveryBlock and PowerLossZeroizes. -/
theorem test_witness_supply :
    (({ running with powerGood := false } : State).powerGood = false ∧
        ({ running with powerGood := false } : State).resetN = true) ∧
      (({ running with resetN := false } : State).powerGood = true ∧
        ({ running with resetN := false } : State).resetN = false) ∧
      ({ running with powerGood := false, resetN := false } : State).powerGood = false ∧
      running.powered = true := by decide +kernel

def lastCheck (inService : Bool) (hold : Bool) : State :=
  { State.reset with
    holdLevel := hold
    pipes := (Vector.replicate 4
      { inService := inService, checkPending := false, pass := none }).set 3 Pipe.coldStart }

/-- The hypotheses of SelfCheckDecidesPowerState: a check among others, the last one with and without a pipe
that passed, with HOLD low and high. -/
theorem test_witness_selfCheck :
    State.reset.pipes[(0 : PipeId)].checkPending = true ∧
      (∃ q : PipeId, q ≠ 0 ∧ State.reset.pipes[q].checkPending = true) ∧
      ¬(∃ q : PipeId, q ≠ 3 ∧ (lastCheck false false).pipes[q].checkPending = true) ∧
      (lastCheck true true).power = .starting ∧ (lastCheck true true).holdLevel = true ∧
      (∀ t : TagId, (lastCheck true true).jobs[t] = none) ∧ (lastCheck true true).executing = none := by
  decide +kernel

/-- The hypotheses of HoldLevelStartsAndEndsHold: with jobs, without, with a request on the link, off it in
WAIT_FREE and in POLL_WAIT (of a write and of a read-back), an ERASE with its write verified that waits for its
drain, and HOLD high. -/
theorem test_witness_hold :
    running.holdLevel = false ∧ running.power = .run ∧ running.executing = none ∧
      (∃ t : TagId, (withJob job running).jobs[t].isSome = true) ∧
      (linkAt .receive (.dataByte 7) .readRecord none).state.holdsLink = true ∧
      (linkAt .waitFree .address .readRecord none).state.holdsLink = false ∧
      (unlocking (linkAt .waitFree .address .readRecord none)).executing.isSome = true ∧
      (erasing (linkAt .pollWait .address .writeRecord (some operation))).executing.isSome = true ∧
      (linkAt .pollWait .address .writeRecord (some operation)).state.holdsLink = false ∧
      (rewrapping true (linkAt .pollWait .address .readRecord (some operation))).executing.isSome = true ∧
      (drainDone (some (voided .verified))).link.transaction = none ∧
      (drainDone (some (voided .verified))).holdLevel = false ∧
      (drainDone (some (voided .verified))).power = .run ∧
      (voided .verified).facts.verified = true ∧
      (∃ t : TagId, (drainDone (some (voided .verified))).jobs[t].isSome = true) ∧
      ({ running with power := .hold, holdLevel := true } : State).holdLevel = true := by decide +kernel

def abandoned (kind : TransactionKind) (o : Option WriteOperation) : LinkMaster :=
  { linkAt .send .handleByte kind o with
    transaction := some { freshContext kind 5 [] with position := .handleByte, abandoning := true } }

/-- The hypotheses of AbandonedStopEndsTheRequest: an UNLOCK, an ERASE, a REWRAP and a GENERATE whose transaction is
marked; the elements that can still be met, with a collision and without. -/
theorem test_witness_abandoned :
    (abandoned .readRecord none).state.holdsLink = true ∧
      (unlocking (abandoned .readRecord none)).executing =
        some { seq := 7, request := .unlock 0 { read := true, write := true } (some 0) } ∧
      (erasing (abandoned .writeRecord (some operation))).executing =
        some { seq := 7, request := .erase 0 none none } ∧
      (erasing (abandoned .writeRecord (some operation))).link.operation = some operation ∧
      (∃ t : TagId, (withJob job (erasing (abandoned .writeRecord (some operation)))).jobs[t].isSome = true) ∧
      (rewrapping true (abandoned .writeRecord (some operation))).executing =
        some { seq := 7, request := .rewrap 0 true } ∧
      (executing (.generate 0 { read := true, write := true } 0) (abandoned .writeRecord (some operation))
        running).executing.isSome = true ∧
      (∀ p ∈ [LinkPoint.handleByte, .repeatedStart, .finalStop],
        canMeetAbandoning (abandoned .writeRecord (some operation))
            { freshContext .writeRecord 5 [] with position := .handleByte, abandoning := true } p = true ∧
          checksLine (abandoned .writeRecord (some operation))
            { freshContext .writeRecord 5 [] with position := .handleByte, abandoning := true } p =
              true) := by
  decide +kernel

/-- The hypotheses of the clauses of AbandonedStopEndsTheRequest on what abandonment makes of an element, at its last
step: in START, in both kinds of ADDRESS and SEND, in RESTART and in RECEIVE. -/
theorem test_witness_windDown :
    ∀ place ∈ [((LinkState.start, Position.address), 1), ((.address, .handleByte), 17),
        ((.send, .dataByte 100), 17), ((.restart, .handleByte), 2), ((.receive, .dataByte 7), 17)],
      ∀ kind ∈ [TransactionKind.readRecord, .writeRecord],
        let l := linkAt place.1.1 place.1.2 kind none
        l.state.holdsLink = true ∧ l.state ≠ .stop ∧
          ∀ x : Transaction,
            x ∈ [{ freshContext kind 5 [] with
              position := place.1.2, abandoning := true, phase := place.2 }] →
            (elementLines l x (currentElement l x)).length ≤ x.phase + 1 := by decide +kernel

/-- An abandoned WRITE RECORD in the last step of its 100th byte makes a repeated start, and after it the stop. -/
theorem test_abandonedWriteRestartsThenStops :
    let s := advanceLink (erasing
      { linkAt .send (.dataByte 100) .writeRecord (some operation) with
        transaction := some
          { freshContext .writeRecord 5 (recordBytes voidRecord) with
            position := .dataByte 100, abandoning := true, phase := 17 } })
    s.link.state = .restart ∧
      (advanceLink (advanceLink s)).link.state = .restart ∧
      (advanceLink (advanceLink (advanceLink s))).link.state = .stop ∧
      (advanceLink (advanceLink (advanceLink s))).link.transaction.map Transaction.stopCause =
        some .abandonment := by decide +kernel

/-- HOLD rises in the stop after an unacknowledged data byte of a WRITE RECORD: the stop goes on, final stop sent is not
set by it, and the request ends ABANDONED. -/
theorem test_abandonedInNackStop :
    let s := erasing
      { linkAt .stop (.dataByte 3) .writeRecord (some operation) with
        transaction := some
          { freshContext .writeRecord 5 (recordBytes voidRecord) with
            position := .dataByte 3, writeBegun := true, stopCause := .nack } }
    (stepOf .holdRises s).map (fun t => (t.link.state, t.link.transaction.map Transaction.abandoning)) =
        some (.stop, some true) ∧
      ((stepOf .holdRises s).bind (stepOf .abandonedStopCompletes)).map
          (fun t => (t.outControl.length, t.link.state, t.executing.isNone)) =
        some (1, .idle, true) ∧
      (∀ x ∈ s.link.transaction, (afterAbandonedStop s.link x).finalStopSent = false) := by
  decide +kernel

/-- The hypotheses of LockingStepLocksAndForgets: an extent with lock on hold in an unpinned slot, and one
without, whose slot no released extent names; a locking step that is due, and one that is not for want of each of its three conditions. -/
theorem test_witness_lockingStep :
    running.extents[(0 : ExtentId)] = some live ∧ live.policy.lockOnHold = true ∧
      running.slots[(0 : SlotId)].pins = 0 ∧
      ({ live with policy := { Policy.default with lockOnHold := false } } :
        Extent).policy.lockOnHold = false ∧
      (let kept := part { live with policy := { Policy.default with lockOnHold := false } } (slotWith 0 key 0)
       ∀ e : ExtentId, ∀ x ∈ kept.extents[e], x.policy.lockOnHold = true → x.key ≠ .live 0) ∧
      (∀ t : TagId, ({ running with power := .quiescing } : State).jobs[t] = none) ∧
      ({ running with power := .quiescing } : State).executing = none ∧ running.power ≠ .quiescing ∧
      (∃ t : TagId, (withJob job running).jobs[t] ≠ none) ∧
      (erasing State.reset.link).executing ≠ none := by decide +kernel

def draining : State :=
  { running with
    power := .quiescing, holdLevel := true, drainTimer := some { remaining := 20, captured := 20 } }

/-- The hypotheses of DrainExpiryCutsEveryJob: jobs left, a request left, nothing running. -/
theorem test_witness_drainExpiry :
    (withJob job draining).drainTimer.isSome = true ∧
      (∃ t : TagId, (withJob job draining).jobs[t].isSome = true) ∧
      (executing (.unlock 0 { read := true, write := true } none) (abandoned .readRecord none)
        draining).executing.isSome = true ∧ (∀ t : TagId, draining.jobs[t] = none) ∧
      running.power ≠ .quiescing := by decide +kernel

/-- The hypotheses of StepKeepsAttn, StepKeepsTries and StepKeepsHeldPartLocked: each invariant in a state that
steps, the last in a part that is held. -/
theorem test_witness_invariants :
    AttnFollowsFlags running ∧ TriesWithinLimit (part { live with tryCount := 4 } (slotWith 0 key 0)) ∧
      HeldPartIsLocked { part (locked .none) Slot.empty with power := .hold, holdLevel := true } ∧
      (∃ t, step { running with pending := [.tick] } = .next t) := by
  refine ⟨by unfold AttnFollowsFlags; decide +kernel, fun _ => ⟨?_, ?_⟩, fun _ _ => ⟨?_, rfl, ?_⟩, _, rfl⟩
  · intro q r e h
    exact absurd h (by simp [part, State.reset, Blocks.coldStart])
  · have all : ∀ e : ExtentId, ∀ x ∈ (part { live with tryCount := 4 } (slotWith 0 key 0)).extents[e],
        1 ≤ x.policy.tryLimit ∧ x.tryCount ≤ x.policy.tryLimit ∧
          (x.barred = true ↔ x.tryCount = x.policy.tryLimit) := by decide +kernel
    exact fun e x h => all e x h
  · decide +kernel
  · have all : ∀ e : ExtentId,
        ∀ x ∈ ({ part (locked .none) Slot.empty with power := .hold, holdLevel := true } : State).extents[e],
          x.policy.lockOnHold = true →
            x.readLock = true ∧ x.writeLock = true ∧ x.key.isLive = false := by decide +kernel
    exact fun e x h => all e x h

/-- The hypotheses of the other clauses of StepKeepsAttn: a cold start by RESET_N, and COLD_START set through a
tick. -/
theorem test_witness_attnStays :
    ({ State.reset with resetN := false } : State).powerGood = true ∧
      AttnFollowsFlags State.reset ∧ State.reset.powered = true ∧
      State.reset.flags[Flag.coldStart.idx] = { state := .set false, enable := true } ∧
      ((stepOf .tick State.reset).map fun t =>
        (t.powered, t.flags[Flag.coldStart.idx].isSet, t.flags[Flag.coldStart.idx].enable)) =
        some (true, true, true) := by
  unfold AttnFollowsFlags
  decide +kernel

end Sys2Proof.Tests
end

section
/-! PROOFS. Openers that are admitted, and the sectors of jobs: how they arrive, pass a pipe and leave
(O8 to O15, O17 and O18). -/

namespace Sys2Proof.Machine

/-! ## Openers that are admitted -/

theorem exec_jobOpener (m : OpenerMsg) {s : State} (h : s.powered = true) :
    exec (.jobOpener m) s = .next (takeOpener m s) :=
  rule_of_powered _ h

/-- An opener that passes checks 1 to 7 is judged by the record of its extent. -/
theorem admission_of_reachesExtent {m : OpenerMsg} {o : Opener} {e : ExtentId} {x : Extent} {s : State}
    (h : reachesExtent m o e x s) : admission m s = judgeExtent o e x s := by
  obtain ⟨-, hm, hfree, hrun, hend, rfl, hspan, hx⟩ := h
  have hsize : s.namespaces[o.ns].size ≠ 0 := by omega
  have hlast : ¬s.namespaces[o.ns].size ≤ o.firstLba + o.count - 1 := by omega
  have hspan' : judgeSpan o s = judgeExtent o (extentAt o.ns o.firstLba s) x s := by
    simp only [judgeSpan, hsize, hlast, hspan, hx, if_true, if_false]
  simp only [admission, hm, hfree, hrun, jobCount_of_free hfree, PowerState.refusal, hspan',
    Option.isSome_none, Bool.false_eq_true, if_false]

/-- A set lock is the first condition to be met (R30). -/
theorem maskable_of_locked {d : Direction} {x : Extent} (hl : x.lockOf d = true) :
    maskable d x = some .locked := by
  cases d <;> exact if_pos hl

/-- Without it the key status decides (R31). -/
theorem maskable_of_unlocked {d : Direction} {x : Extent} (hl : x.lockOf d = false) :
    maskable d x =
      if x.key = .erased then some .keyErased else if x.key = .none then some .keyAbsent else none := by
  have hl' : ¬x.lockOf d = true := by simp [hl]
  have hkey : maskable d x =
      maskable .encipher { x with writeLock := false } := by
    cases d <;> exact if_neg hl'
  rw [hkey]
  cases hk : x.key <;> simp [maskable]

/-- The first of checks 9 to 11 to apply goes by the fault mask. -/
theorem judgeExtent_of_maskable {o : Opener} {x : Extent} {c : FillCondition} (e : ExtentId) (s : State)
    (hb : x.barred = false) (h : maskable o.direction x = some c) :
    judgeExtent o e x s = masked o e x c := by
  cases hl : x.lockOf o.direction with
  | true =>
    rw [maskable_of_locked hl, Option.some.injEq] at h
    simp [judgeExtent, hb, hl, h]
  | false =>
    rw [maskable_of_unlocked hl] at h
    cases hk : x.key with
    | none => simp_all [judgeExtent]
    | erased => simp_all [judgeExtent]
    | live k => simp [hk] at h

/-- An extent that meets no condition lets the opener pin its slot. -/
theorem judgeExtent_of_live {o : Opener} {x : Extent} {k : SlotId} (e : ExtentId) {s : State}
    (hb : x.barred = false) (h : maskable o.direction x = none) (hk : x.key = .live k)
    (hw : ¬(s.slots[k].worn = true ∧ s.slots[k].stopAtLimit = true)) :
    judgeExtent o e x s = .cipher o.tag o e k := by
  have hl : x.lockOf o.direction = false :=
    Bool.eq_false_iff.2 fun hl => by simp [maskable_of_locked hl] at h
  have hw' : (s.slots[k].worn && s.slots[k].stopAtLimit) = false := by
    rw [← Bool.and_eq_true] at hw
    exact Bool.eq_false_iff.2 hw
  simp only [judgeExtent, hb, hl, hk, hw', Bool.false_eq_true, if_false]

theorem freshTimer_of_pos (x : Extent) {n : Nat} (h : 0 < n) : freshTimer x n = freshTimer x 1 := by
  simp only [freshTimer, h, Nat.zero_lt_one]

/-- No count goes on while a job names the extent. -/
theorem keptTimer_of_pos (x : Extent) {n : Nat} (t : IdleTimer) (h : 0 < n) :
    keptTimer x n t = freshTimer x 1 := by
  have hnot : ∀ r, freshTimer x n ≠ .counting r := by
    intro r
    simp only [freshTimer, h, if_true]
    split_ifs <;> simp
  rw [← freshTimer_of_pos x h]
  unfold keptTimer
  split
  · next r _ hr => exact absurd hr (hnot r)
  · rfl

/-- The timer of an extent that a new record names. -/
theorem judgeTimer_of_named {t : TagId} {j : Job} {e : ExtentId} {x : Extent} {s : State}
    (hj : s.jobs[t] = some j) (he : j.extent = e) (hx : s.extents[e] = some x) :
    judgeTimer false e s = { s with timers := s.timers.set e (freshTimer x 1) } := by
  have hpos : 0 < jobsNaming e s := (jobsNaming_pos e s).2 ⟨t, j, hj, he⟩
  rw [judgeTimer_keep hx, keptTimer_of_pos x _ hpos]
  rfl

/-- Settles O8: checks 1 to 7 leave the extent's record to decide, and the new record suspends its timer. -/
theorem openerAdmitted : Obligations.OpenerAdmitted := by
  unfold Obligations.OpenerAdmitted
  intro m o e x s h hb
  have hadm := admission_of_reachesExtent h
  obtain ⟨hp, -, -, -, -, -, -, hx⟩ := h
  refine ⟨fun c hd hm hf => ?_, fun k hm hk hw => ?_⟩
  · have hfill : admission m s = .fill o.tag o e c := by
      rw [hadm, judgeExtent_of_maskable e s hb (by rw [hd]; exact hm)]
      simp only [masked, hd, hf]
    rw [exec_jobOpener m hp]
    simp only [takeOpener, hfill]
    have hjob : (setJob o.tag (some (newJob o e (.fill c))) s).jobs[o.tag] =
        some (newJob o e (.fill c)) := by simp
    rw [judgeTimer_of_named (e := e) hjob rfl hx]
    rfl
  · have hcipher : admission m s = .cipher o.tag o e k :=
      hadm.trans (judgeExtent_of_live e hb hm hk hw)
    rw [exec_jobOpener m hp]
    simp only [takeOpener, hcipher]
    have hjob : (pin k (setJob o.tag (some (newJob o e (.cipher k))) s)).jobs[o.tag] =
        some (newJob o e (.cipher k)) := by simp [pin]
    rw [judgeTimer_of_named (e := e) hjob rfl hx]
    rfl

/-! ## Sectors that arrive -/

theorem index?_of_eq {n v : Nat} {t : Fin n} (h : v = t.val) : index? n v = some t := by
  subst h
  simp [index?]

theorem index?_of_le {n v : Nat} (h : n ≤ v) : index? n v = none := by
  simp [index?, Nat.not_lt.2 h]

/-- A message on a clear data channel is taken at once. -/
theorem arriveData_of_clear (m : DataMsg) {s : State} (h : channelClear s) :
    arriveData m s = deliver m s := by
  obtain ⟨-, hw, hi⟩ := h
  simp [arriveData, channelOpen, hw, hi]

theorem exec_sectorIn_of_clear (m : SectorInMsg) {s : State} (h : channelClear s) :
    exec (.sectorIn m) s = .next (lockingStepIfDue (deliverSector m s)) := by
  refine (closingRule_of_powered _ h.1).trans ?_
  rw [arriveData_of_clear _ h]
  rfl

theorem deliverSector_of_outOfRange {m : SectorInMsg} (s : State) (h : 47 < m.tag.toNat) :
    deliverSector m s = setFlag .stray s := by
  simp only [deliverSector, index?_of_le h]
  rfl

theorem deliverSector_of_free {m : SectorInMsg} {t : TagId} {s : State} (ht : m.tag.toNat = t.val)
    (hj : s.jobs[t] = none) : deliverSector m s = setFlag .stray s := by
  simp only [deliverSector, index?_of_eq ht, hj]
  rfl

theorem deliverSector_of_ending {m : SectorInMsg} {t : TagId} {j : Job} {k : Nat} {why : EndReason}
    {s : State} (ht : m.tag.toNat = t.val) (hj : s.jobs[t] = some j) (he : j.state = .ending k why) :
    deliverSector m s = s := by
  simp only [deliverSector, index?_of_eq ht, hj, he]

theorem deliverSector_of_received {m : SectorInMsg} {t : TagId} {j : Job} {s : State}
    (ht : m.tag.toNat = t.val) (hj : s.jobs[t] = some j) (ha : j.state = .active)
    (hc : j.nextToReceive = j.count) : deliverSector m s = setFlag .stray s := by
  simp only [deliverSector, index?_of_eq ht, hj, ha, hc, if_true]
  rfl

/-- A Sector In that a job expects is judged by R9 to R13. -/
theorem exec_sectorIn_of_expected {m : SectorInMsg} {t : TagId} {j : Job} {s : State}
    (h : expectsSector m t j s) :
    exec (.sectorIn m) s = .next (lockingStepIfDue (sectorOfActive t j m s)) := by
  obtain ⟨hclear, ht, hj, ha, hc⟩ := h
  rw [exec_sectorIn_of_clear m hclear]
  simp only [deliverSector, index?_of_eq ht, hj, ha, hc, if_false]

/-- Settles O9: an ENDING job takes no sector, and its record keeps the locking step away. -/
theorem sectorOfEndingJobIsDiscarded : Obligations.SectorOfEndingJobIsDiscarded := by
  unfold Obligations.SectorOfEndingJobIsDiscarded
  intro m t j k why s hclear ht hj he
  rw [exec_sectorIn_of_clear m hclear, deliverSector_of_ending ht hj he,
    lockingStepIfDue_of_job ⟨t, by simp [hj]⟩]

theorem lockingStepIfDue_of_notDue {s : State}
    (h : ¬(s.power = .quiescing ∧ tableEmpty s = true ∧ s.executing.isNone = true)) :
    lockingStepIfDue s = s :=
  if_neg h

/-- Settles O10: each of the cases of R7 sets STRAY, which makes no locking step due. -/
theorem straySectorSetsStray : Obligations.StraySectorSetsStray := by
  unfold Obligations.StraySectorSetsStray
  intro s hclear hdue
  refine ⟨fun m hm => ?_, fun bytes => ?_⟩
  · have hstray : deliverSector m s = setFlag .stray s := by
      obtain hr | ⟨t, ht, hj | ⟨j, hj, ha, hc⟩⟩ := hm
      · exact deliverSector_of_outOfRange s hr
      · exact deliverSector_of_free ht hj
      · exact deliverSector_of_received ht hj ha hc
    rw [exec_sectorIn_of_clear m hclear, hstray,
      lockingStepIfDue_of_notDue (s := setFlag .stray s) hdue]
  · refine (rule_of_powered _ hclear.1).trans ?_
    rw [arriveData_of_clear _ hclear]
    rfl

/-! ## Sectors that are taken, withheld or dropped -/

theorem wantsStoredTag_iff (j : Job) (k : SlotId) (s : State) :
    wantsStoredTag j k s = true ↔ j.direction = .decipher ∧ s.slots[k].state.mode? = some .tagged := by
  simp [wantsStoredTag]

/-- R9's test of the stored tag. -/
theorem storedTag_iff (tag : Option SectorTag) (j : Job) (k : SlotId) (s : State) :
    tag.isSome = wantsStoredTag j k s ↔
      (tag.isSome = true ↔ j.direction = .decipher ∧ s.slots[k].state.mode? = some .tagged) := by
  rw [Bool.eq_iff_iff, wantsStoredTag_iff]

/-- A FILL-mode job counts a sector of its namespace's size and keeps nothing of it. -/
theorem sectorOfActive_of_fill {m : SectorInMsg} {j : Job} {c : FillCondition} {data : Bytes}
    {tag : Option SectorTag} {s : State} (t : TagId) (hm : j.mode = .fill c)
    (hb : sectorInBody? m = some (s.namespaces[j.ns].sectorSize, data, tag)) :
    sectorOfActive t j m s = setJob t (some { j with nextToReceive := j.nextToReceive + 1 }) s := by
  simp only [sectorOfActive, hb, hm, ne_eq, not_true, if_false]

/-- A CIPHER-mode job takes a well-formed sector. -/
theorem sectorOfActive_of_wellFormed {m : SectorInMsg} {j : Job} {k : SlotId} {data : Bytes}
    {tag : Option SectorTag} {s : State} (t : TagId) (h : wellFormedFor m j k data tag s) :
    sectorOfActive t j m s = takeSector t data tag s := by
  obtain ⟨hm, hb, htag⟩ := h
  have hs := (storedTag_iff tag j k s).2 htag
  simp only [sectorOfActive, hb, hm, hs, ne_eq, not_true, if_false, if_true]

theorem freeBuffer?_some {b : BufferId} {s : State} (h : freeBuffer? s = some b) :
    s.buffers[b].use = .free := by
  simpa using List.find?_some h

theorem freeBuffer?_none {s : State} :
    freeBuffer? s = none ↔ ∀ b : BufferId, s.buffers[b].use ≠ .free := by
  simp [freeBuffer?, List.find?_eq_none]

/-- A sector joins the Ready Sector List with the index its job is next to receive (R11). -/
theorem listSector_of_job {t : TagId} {j : Job} {s : State} (data : Bytes) (tag : Option SectorTag)
    (b : BufferId) (hj : s.jobs[t] = some j) :
    listSector t data tag b s =
      { s with buffers := s.buffers.set b { use := .listed, data := data, tag := tag }
               ready := s.ready ++ [{ tag := t, index := j.nextToReceive, buffer := b }]
               jobs := s.jobs.set t (some { j with nextToReceive := j.nextToReceive + 1 }) } := by
  simp only [listSector, hj]
  rfl

/-- Settles O11: a FILL-mode job only counts, and a CIPHER-mode job lists the sector in a free buffer. -/
theorem expectedSectorIsTaken : Obligations.ExpectedSectorIsTaken := by
  unfold Obligations.ExpectedSectorIsTaken
  refine ⟨fun m t j c data tag s h hm hb => ?_, fun m t j k data tag s h hwf hfree => ?_⟩
  · rw [exec_sectorIn_of_expected h, sectorOfActive_of_fill t hm hb,
      lockingStepIfDue_of_job ⟨t, by simp⟩]
    rfl
  · obtain ⟨-, -, hj, -, -⟩ := id h
    rcases hb : freeBuffer? s with _ | b
    · obtain ⟨b, hb'⟩ := hfree
      exact absurd hb' (freeBuffer?_none.1 hb b)
    · refine ⟨b, freeBuffer?_some hb, ?_⟩
      rw [exec_sectorIn_of_expected h, sectorOfActive_of_wellFormed t hwf]
      simp only [takeSector, hb]
      rw [listSector_of_job data tag b hj, lockingStepIfDue_of_job ⟨t, by simp⟩]

/-- Settles O12: without a free buffer R12 withholds the sector, or R13 drops it and stops its job. -/
theorem fullPoolWithholdsOrDrops : Obligations.FullPoolWithholdsOrDrops := by
  unfold Obligations.FullPoolWithholdsOrDrops
  intro m t j k data tag s h hwf hfull
  obtain ⟨⟨-, hnone, -⟩, -, hj, ha, -⟩ := id h
  have hfull := freeBuffer?_none.2 hfull
  refine ⟨fun hstall => ?_, fun hstall => ?_⟩
  · rw [exec_sectorIn_of_expected h, sectorOfActive_of_wellFormed t hwf]
    simp only [takeSector, hfull, hstall, if_true]
    rw [lockingStepIfDue_of_job ⟨t, by simp [hj]⟩]
  · rw [exec_sectorIn_of_expected h, sectorOfActive_of_wellFormed t hwf]
    simp only [takeSector, hfull, hstall, Bool.false_eq_true, if_false, overrun, hj]
    rw [stopJob_of_active j.nextToReceive .overrun (s := setFlag .overrun s) hj ha hnone]

/-! ## Malformed sectors -/

/-- A Sector In's data and trailer, where its header is not rejected. -/
theorem sectorInBody?_eq_some {m : SectorInMsg} {code : SectorSize} {data : Bytes}
    {tag : Option SectorTag} :
    sectorInBody? m = some (code, data, tag) ↔
      m.reserved4 = 0 ∧ m.reserved5 = 0 ∧ (m.flags = 0x00 ∨ m.flags = 0x01) ∧
        lengthOf m.lengthCode = some code ∧
        m.payload.length = code.bytes + (if m.flags = 0x01 then 16 else 0) ∧
        data = m.payload.take code.bytes ∧
        tag =
          if m.flags = 0x01 then some (BitVec.ofNat 128 (beNat (m.payload.drop code.bytes)))
          else none := by
  have hflags : 2 ≤ m.flags.toNat ↔ ¬(m.flags = 0x00 ∨ m.flags = 0x01) := by bv_omega
  unfold sectorInBody?
  simp only [hflags]
  by_cases hr : m.reserved4 = 0 ∧ m.reserved5 = 0 ∧ (m.flags = 0x00 ∨ m.flags = 0x01)
  · obtain ⟨h4, h5, hf⟩ := hr
    rw [if_neg (by simp only [h4, h5, hf, ne_eq, not_true, or_self, not_false_iff])]
    rcases hl : lengthOf m.lengthCode with _ | size
    · simp
    · have hshort : ((m.payload.take size.bytes).length ≠ size.bytes) = (m.payload.length < size.bytes) := by
        simp
      simp only [hshort, List.length_drop, h4, h5, hf, true_and, Option.some.injEq]
      split_ifs <;> grind
  · rw [if_pos (by tauto)]
    simp
    tauto

theorem lengthOf_known {b : Byte} : (∃ size, lengthOf b = some size) ↔ b = 0x00 ∨ b = 0x01 := by
  unfold lengthOf
  split_ifs <;> simp_all

/-- The length code of a header that is not rejected. -/
theorem lengthOf_eq_some {b : Byte} {size : SectorSize} (h : lengthOf b = some size) :
    size = (if b = 0x00 then .b512 else .b4096) ∧
      size.bytes = if b = 0x00 then 512 else 4096 := by
  unfold lengthOf at h
  split_ifs at h with h0 h1
  · cases h
    rw [if_pos h0, if_pos h0]
    exact ⟨rfl, rfl⟩
  · cases h
    rw [if_neg h0, if_neg h0]
    exact ⟨rfl, rfl⟩

/-- What a header that is not rejected looks like (R164). -/
theorem sectorInBody?_ne_none (m : SectorInMsg) :
    sectorInBody? m ≠ none ↔
      m.reserved4 = 0 ∧ m.reserved5 = 0 ∧ (m.flags = 0x00 ∨ m.flags = 0x01) ∧
        (m.lengthCode = 0x00 ∨ m.lengthCode = 0x01) ∧
        m.payload.length =
          (if m.lengthCode = 0x00 then 512 else 4096) + if m.flags = 0x01 then 16 else 0 := by
  constructor
  · intro h
    obtain ⟨⟨code, data, tag⟩, hb⟩ := Option.ne_none_iff_exists'.1 h
    obtain ⟨h4, h5, hf, hcode, hlen, -, -⟩ := sectorInBody?_eq_some.1 hb
    rw [(lengthOf_eq_some hcode).2] at hlen
    exact ⟨h4, h5, hf, lengthOf_known.1 ⟨code, hcode⟩, hlen⟩
  · rintro ⟨h4, h5, hf, hl, hlen⟩
    obtain ⟨code, hcode⟩ := lengthOf_known.2 hl
    rw [← (lengthOf_eq_some hcode).2] at hlen
    rw [sectorInBody?_eq_some.2 ⟨h4, h5, hf, hcode, hlen, rfl, rfl⟩]
    exact Option.some_ne_none _

/-- What makes a header rejected (R164). -/
theorem sectorInBody?_eq_none (m : SectorInMsg) :
    sectorInBody? m = none ↔
      m.reserved4 ≠ 0 ∨ m.reserved5 ≠ 0 ∨ (m.flags ≠ 0x00 ∧ m.flags ≠ 0x01) ∨
        (m.lengthCode ≠ 0x00 ∧ m.lengthCode ≠ 0x01) ∨
        m.payload.length ≠
          (if m.lengthCode = 0x00 then 512 else 4096) + if m.flags = 0x01 then 16 else 0 := by
  rw [← not_iff_not, ← ne_eq, sectorInBody?_ne_none]
  simp only [not_or, not_and_or, ne_eq, not_not]

/-- Settles O13: R9's tests of a header as equivalences, and a sector that fails one of them stops its job. -/
theorem malformedSectorEndsJob : Obligations.MalformedSectorEndsJob := by
  unfold Obligations.MalformedSectorEndsJob
  refine ⟨fun m => ⟨sectorInBody?_eq_none m, fun code data tag hb => ?_⟩, fun m t j s h hbad => ?_⟩
  · obtain ⟨-, -, -, hcode, hlen, hdata, htag⟩ := sectorInBody?_eq_some.1 hb
    obtain ⟨hcode, hsize⟩ := lengthOf_eq_some hcode
    rw [hsize] at hdata htag hlen
    refine ⟨hcode, hdata, ?_⟩
    by_cases hf : m.flags = 0x01
    · have hlt := beNat_lt (m.payload.drop (if m.lengthCode = 0x00 then 512 else 4096))
      rw [List.length_drop, hlen, if_pos hf, Nat.add_sub_cancel_left,
        show (256 : Nat) ^ 16 = 2 ^ 128 by norm_num] at hlt
      rw [htag, if_pos hf, if_pos hf, Option.map_some, BitVec.toNat_ofNat, Nat.mod_eq_of_lt hlt]
    · rw [htag, if_neg hf, if_neg hf, Option.map_none]
  · obtain ⟨⟨-, hnone, -⟩, -, hj, ha, -⟩ := id h
    have hmal : sectorOfActive t j m s = malformedSector t j s := by
      obtain hb | ⟨size, data, tag, hb, hs | ⟨k, hm, htag⟩⟩ := hbad
      · simp only [sectorOfActive, hb]
      · simp only [sectorOfActive, hb, ne_eq, hs, not_false_iff, if_true]
      · rw [← storedTag_iff] at htag
        simp only [sectorOfActive, hb, hm, htag, if_false, ite_self]
    rw [exec_sectorIn_of_expected h, hmal, malformedSector,
      stopJob_of_active j.nextToReceive .format hj ha hnone]

/-! ## Hand-over -/

/-- A slot that holds a key is READY or DRAINING (R88). -/
theorem key?_eq_some {v : SlotState} {key : LoadedKey} :
    v.key? = some key ↔ v = .draining key ∨ ∃ e, v = .ready e key := by
  cases v <;> simp [SlotState.key?]

/-- Settles O14: the pipe is ready, and the slot of the oldest entry's job holds a key. -/
theorem handOverGivesOldestEntry : Obligations.HandOverGivesOldestEntry := by
  unfold Obligations.HandOverGivesOldestEntry
  intro p r rest j k key s hp hin hidle hready hj hm hkey
  have hpipe : s.pipes[p].ready = true := by
    rw [Pipe.ready, hin, hidle]
    rfl
  refine (rule_of_powered _ hp).trans ?_
  simp only [handOver, hpipe, hready, hj, hm, key?_eq_some.2 hkey, if_true]
  rfl

/-! ## Passes that end -/

theorem exec_pipeCompletion (i : PipeId) {s : State} (h : s.powered = true) :
    exec (.pipeCompletion i) s = .next (lockingStepIfDue (completePass i s)) :=
  closingRule_of_powered _ h

/-- A counted use changes its slot, and the flags where the slot becomes worn. -/
theorem countedUse_changes (k : SlotId) (s : State) :
    countedUse k s =
      { s with slots := (countedUse k s).slots, flags := (countedUse k s).flags
               attn := (countedUse k s).attn } :=
  countUse_changes k s

/-- A pass of a job ends: counted, taken by the job, and the job examined for closing (R86). -/
theorem completePass_of_job {i : PipeId} {p : Pass} {j : Job} {s : State}
    (hp : s.pipes[i].pass = some p) (hj : s.jobs[p.tag] = some j) :
    completePass i s =
      closeIfDone p.tag
        (setPipe i { s.pipes[i] with pass := none }
          (takeResult p { j with sectorsInPipes := j.sectorsInPipes - 1 }
            (passResult p s.buffers[p.buffer]) (countedUse p.slot s))) := by
  have hjobs : (countedUse p.slot s).jobs = s.jobs := by rw [countedUse_changes]
  have hpipes : (countedUse p.slot s).pipes = s.pipes := by rw [countedUse_changes]
  simp only [completePass, hp, countUse_eq, hjobs, hpipes, hj]

/-- A result that its job will not emit is discarded. -/
theorem takeResult_of_discarded {p : Pass} {j : Job} {k : Nat} {why : EndReason} (res : PassResult)
    (s : State) (he : j.state = .ending k why) (hk : k ≤ p.index) :
    takeResult p j res s = freed p.buffer (setJob p.tag (some j) s) := by
  have hkeeps : j.keeps p.index = false := by simp [Job.keeps, he, hk]
  simp only [takeResult, hkeeps, Bool.false_eq_true, if_false, releaseBuffer_eq_freed]

/-- A transformed result that its job will emit is held. -/
theorem takeResult_of_transformed {p : Pass} {j : Job} (data : Bytes) (tag : Option SectorTag)
    (s : State) (hkeeps : j.keeps p.index = true) :
    takeResult p j (.transformed data tag) s =
      setBuffer p.buffer { use := .held, data := data, tag := tag }
        (setJob p.tag
          (some
            { j with hold := insertHeld { index := p.index, buffer := p.buffer, fill := false } j.hold })
          s) := by
  simp only [takeResult, hkeeps, if_true]

/-- A pass whose tag check does not fail is TRANSFORMED (R83 to R85). -/
theorem passResult_of_passed {p : Pass} {b : Buffer}
    (h : p.mode = .tagged → p.direction = .decipher →
      b.tag = some (Config.sectorTag p.size p.key p.tweak
        (transform p.size p.key p.tweak p.direction b.data))) :
    passResult p b =
      .transformed (transform p.size p.key p.tweak p.direction b.data)
        (if p.mode = .tagged ∧ p.direction = .encipher then
          some (Config.sectorTag p.size p.key p.tweak b.data)
        else b.tag) := by
  cases hm : p.mode with
  | tweak => simp [passResult, hm]
  | tagged =>
    cases hd : p.direction with
    | encipher => simp [passResult, hm, hd]
    | decipher =>
      have htag := h hm hd
      rw [hd] at htag
      simp only [passResult, hm, hd, htag, if_true]
      simp

/-- A job keeps the sectors that it will still emit, and has them still to emit. -/
theorem keeps_of_toEmit {j : Job} {i : Nat}
    (h : j.state = .active ∨ ∃ k why, j.state = .ending k why ∧ i < k) : j.keeps i = true := by
  obtain ha | ⟨k, why, he, hk⟩ := h
  · simp [Job.keeps, ha]
  · simp [Job.keeps, he, hk]

/-- A job with a sector still to emit does not close. -/
theorem not_emittedAll_of_toEmit {j : Job} {i : Nat}
    (h : j.state = .active ∨ ∃ k why, j.state = .ending k why ∧ i < k) (hi : j.nextToEmit ≤ i)
    (hc : i < j.count) : ¬emittedAll j := by
  obtain ha | ⟨k, why, he, hk⟩ := h
  · simp only [emittedAll, ha]
    omega
  · simp only [emittedAll, he]
    omega

/-- Settles O15, by the result's two fates: below the fault index it is held, from there on it is discarded. -/
theorem completedSectorIsHeld : Obligations.CompletedSectorIsHeld := by
  unfold Obligations.CompletedSectorIsHeld
  refine ⟨fun size key w data => ⟨fun d => transform_length size key w d data,
    transform_inverse size key w data, transform_inverse_of_decipher size key w data⟩, ?_, ?_⟩
  · intro i p j k why s hp hpass hj he hk
    rw [exec_pipeCompletion i hp, completePass_of_job hpass hj,
      takeResult_of_discarded (j := { j with sectorsInPipes := j.sectorsInPipes - 1 }) _ _ he hk]
    have hpipes : (freed p.buffer (setJob p.tag (some { j with sectorsInPipes := j.sectorsInPipes - 1 })
        (countedUse p.slot s))).pipes = s.pipes := by
      rw [← releaseBuffer_eq_freed, (JobFrame.of_releaseBuffer _ _).pipes, setJob_pipes, countedUse_changes]
    have hjobs : (countedUse p.slot s).jobs = s.jobs := by rw [countedUse_changes]
    simp only
    rw [← hjobs, ← hpipes]
    rfl
  · intro i p j s hp hpass hj hstate hi hc out htag
    have hjobs : (countedUse p.slot s).jobs = s.jobs := by rw [countedUse_changes]
    have hpipes : (countedUse p.slot s).pipes = s.pipes := by rw [countedUse_changes]
    have hbuffers : (countedUse p.slot s).buffers = s.buffers := by rw [countedUse_changes]
    rw [exec_pipeCompletion i hp, completePass_of_job hpass hj, passResult_of_passed htag,
      takeResult_of_transformed (j := { j with sectorsInPipes := j.sectorsInPipes - 1 }) _ _ _
        (keeps_of_toEmit hstate)]
    simp only [setPipe, setBuffer, setJob, hjobs, hpipes, hbuffers]
    rw [closeIfDone_of_left (t := p.tag) (j := { j with
        sectorsInPipes := j.sectorsInPipes - 1
        hold := insertHeld { index := p.index, buffer := p.buffer, fill := false } j.hold })
        (by simp) (not_emittedAll_of_toEmit hstate hi hc),
      lockingStepIfDue_of_job ⟨p.tag, by simp⟩]

/-! ## Sectors that leave -/

theorem exec_sectorOut (t : TagId) {s : State} (h : s.powered = true) :
    exec (.sectorOut t) s = .next (lockingStepIfDue (acceptSector t s)) :=
  closingRule_of_powered _ h

/-- Every index of an ACTIVE job is emitted, and those below its fault index of an ENDING one (R16). -/
theorem emits_iff (j : Job) (i : Nat) :
    j.emits i = true ↔ ∀ k why, j.state = .ending k why → i < k := by
  cases hs : j.state <;> simp [Job.emits, hs]

/-- A CIPHER-mode job's Sector Out is ready when its next index is held and is to be emitted. -/
theorem readyResult_eq_some {j : Job} {h : HeldResult} :
    readyResult j = some h ↔
      j.emits j.nextToEmit = true ∧ (j.hold.find? fun h => decide (h.index = j.nextToEmit)) = some h := by
  simp [readyResult]

/-- The data of a fill, for a DEFINED extent. -/
theorem fillData_of_defined {j : Job} {x : Extent} {s : State} (hx : s.extents[j.extent] = some x) :
    fillData j s = List.replicate s.namespaces[j.ns].sectorSize.bytes x.policy.fillByte := by
  simp only [fillData, fillByte, hx]

/-- A CIPHER-mode job's record when its next Sector Out has left. -/
def Job.emitted (j : Job) : Job :=
  { j with
    nextToEmit := j.nextToEmit + 1
    hold := j.hold.filter fun g => decide (g.index ≠ j.nextToEmit) }

/-- A ready Sector Out of a CIPHER-mode job is accepted (R16). -/
theorem acceptSector_of_held {t : TagId} {j : Job} {k : SlotId} {h : HeldResult} {s : State}
    (hj : s.jobs[t] = some j) (hm : j.mode = .cipher k) (hr : readyResult j = some h) :
    acceptSector t s =
      closeIfDone t
        (freed h.buffer (setJob t (some j.emitted) (emitSector (heldSectorOut t j h s) s))) := by
  have hi : h.index = j.nextToEmit := by simpa using List.find?_some (readyResult_eq_some.1 hr).2
  simp only [acceptSector, hj, hm, hr, hi, releaseBuffer_eq_freed, Job.emitted]

/-- Settles O17, by the job's mode: a held result or a fill leaves, and without one the command does nothing. -/
theorem readySectorOutIsEmitted : Obligations.ReadySectorOutIsEmitted := by
  unfold Obligations.ReadySectorOutIsEmitted
  intro t j x s hp hj hx
  have hemits (hb : j.nextToEmit < match j.state with
      | .active => j.count
      | .ending k _ => k) : j.emits j.nextToEmit = true :=
    (emits_iff j j.nextToEmit).2 fun k why hs => by simpa only [hs] using hb
  refine ⟨fun k h hm hh hb => ?_, fun c hm hr hb => ?_, fun hnone => ?_⟩
  · have hi : h.index = j.nextToEmit := by simpa using List.find?_some hh
    rw [exec_sectorOut t hp, acceptSector_of_held hj hm (readyResult_eq_some.2 ⟨hemits hb, hh⟩),
      heldSectorOut, fillData_of_defined hx, hi]
    rfl
  · have hready : readyFill j = true := by simp [readyFill, hr, hemits hb]
    rw [exec_sectorOut t hp]
    simp only [acceptSector, hj, hm, hready, if_true, fillData_of_defined hx]
    rfl
  · have hidle : acceptSector t s = s := by
      cases hm : j.mode with
      | cipher k =>
        have hr : readyResult j = none := by
          rw [Option.eq_none_iff_forall_ne_some]
          intro h hr
          obtain ⟨he, hh⟩ := readyResult_eq_some.1 hr
          obtain ⟨k, -, hno⟩ | ⟨c, hc, -⟩ | ⟨k, why, hs, hk⟩ := hnone
          · exact hno h (List.mem_of_find?_eq_some hh) (by simpa using List.find?_some hh)
          · rw [hm] at hc
            contradiction
          · exact absurd ((emits_iff j _).1 he k why hs) (Nat.not_lt.2 hk)
        simp only [acceptSector, hj, hm, hr]
      | fill c =>
        have hr : readyFill j = false := by
          rw [Bool.eq_false_iff]
          intro hr
          obtain ⟨hlt, he⟩ : j.nextToEmit < j.nextToReceive ∧ j.emits j.nextToEmit = true := by
            simpa [readyFill] using hr
          obtain ⟨k, hc, -⟩ | ⟨c, -, hle⟩ | ⟨k, why, hs, hk⟩ := hnone
          · rw [hm] at hc
            contradiction
          · exact absurd hlt (Nat.not_lt.2 hle)
          · exact absurd ((emits_iff j _).1 he k why hs) (Nat.not_lt.2 hk)
        simp only [acceptSector, hj, hm, hr, Bool.false_eq_true, if_false]
    rw [exec_sectorOut t hp, hidle, lockingStepIfDue_of_job ⟨t, by simp [hj]⟩]

/-- Settles O18: the sector that leaves makes its buffer FREE, which the withheld Sector In takes at once. -/
theorem withheldSectorTakesFreedBuffer : Obligations.WithheldSectorTakesFreedBuffer := by
  unfold Obligations.WithheldSectorTakesFreedBuffer
  intro t j h k w s hp hw hj
  refine ⟨fun m => ?_, fun ha hm hfill hh hmore v hv => ?_⟩
  · have hclosed : channelOpen s = false := by simp [channelOpen, hw]
    have harrive : arriveData (.sector m) s = { s with inbound := s.inbound ++ [.sector m] } := by
      simp only [arriveData, hclosed, Bool.false_eq_true, if_false]
    refine (closingRule_of_powered _ hp).trans ?_
    rw [harrive, lockingStepIfDue_of_job ⟨t, by simp [hj]⟩]
  · have hi : h.index = j.nextToEmit := by simpa using List.find?_some hh
    have hemits : j.emits j.nextToEmit = true := by simp [Job.emits, ha]
    have hjob : (setJob t (some j.emitted) (emitSector (heldSectorOut t j h s) s)).jobs[t] =
        some j.emitted := by simp
    obtain ⟨n, hn⟩ := freed_job h.buffer hjob
    have hleft : ¬emittedAll { j.emitted with nextToReceive := n } := by
      simp only [emittedAll, Job.emitted, ha]
      omega
    rw [exec_sectorOut t hp, acceptSector_of_held hj hm (readyResult_eq_some.2 ⟨hemits, hh⟩),
      closeIfDone_of_left hn hleft, lockingStepIfDue_of_job ⟨t, by rw [hn]; rfl⟩]
    have hv' : (setJob t (some j.emitted) (emitSector (heldSectorOut t j h s) s)).jobs[w.tag] =
        some v := hv
    simp only [freed, setJob_withheld, emitSector_withheld, hw, hv']
    simp only [heldSectorOut, hfill, hi]
    rfl

end Sys2Proof.Machine
end

section
/-! PROOFS. Jobs that close when their last sector has left (O19). -/

namespace Sys2Proof.Machine

/-! ## Jobs that close -/

/-- The closed part, where the job's pin was the last of a DRAINING slot. -/
theorem closedWith_of_drain {c : Closer} {t : TagId} {j : Job} {x : Extent} {k : SlotId} {s : State}
    (hd : drainOf j s = some k) :
    closedWith c t j x s =
      { closerSent c x s with
        slots := s.slots.set k (unpinnedSlot s.slots[k])
        jobs := (closedWith c t j x s).jobs
        timers := (closedWith c t j x s).timers } := by
  obtain ⟨hm, -⟩ := drainOf_some hd
  simp only [closedWith, hm]

theorem closerSent_executing (c : Closer) (x : Extent) (s : State) :
    (closerSent c x s).executing = s.executing := by
  rw [closerSent_changes]

theorem closerSent_extents (c : Closer) (x : Extent) (s : State) :
    (closerSent c x s).extents = s.extents := by
  rw [closerSent_changes]

/-- A job closes, and no request waits for the drain that ends with it, if one does. -/
theorem closeJob_of_unawaited {t : TagId} {j : Job} {x : Extent} {s : State} (hj : s.jobs[t] = some j)
    (hx : s.extents[j.extent] = some x)
    (hw : ∀ k, drainOf j s = some k →
      ∀ seq e w, s.executing ≠ some { seq := seq, request := .erase e (some k) w }) :
    closeJob t j s = closedWith (closerOf t j) t j x s := by
  rcases hd : drainOf j s with _ | k
  · exact closeJob_of_noDrain hj hx hd
  · rw [closeJob_of_drain hj hx hd, drainEnded_of_unawaited, closedWith_of_drain hd]
    intro seq e w
    show (closerSent (closerOf t j) x s).executing ≠ _
    rw [closerSent_executing]
    exact hw k hd seq e w

/-- A job closes, and an ERASE whose void write is under way waits for that write alone. -/
theorem closeJob_of_writing {t : TagId} {j : Job} {x : Extent} {k : SlotId} {seq : Byte} {e : ExtentId}
    {s : State} (hj : s.jobs[t] = some j) (hx : s.extents[j.extent] = some x)
    (hd : drainOf j s = some k)
    (he : s.executing = some { seq := seq, request := .erase e (some k) none }) :
    closeJob t j s =
      { closedWith (closerOf t j) t j x s with
        executing := some { seq := seq, request := .erase e none none } } := by
  rw [closeJob_of_drain hj hx hd, closedWith_of_drain hd]
  simp only [drainEnded, closerSent_executing, he, if_true]
  rfl

/-- A job closes, and an ERASE whose void write has ended is answered. -/
theorem closeJob_of_written {t : TagId} {j : Job} {x y : Extent} {k : SlotId} {seq : Byte}
    {e : ExtentId} {w : WriteEnd} {s : State} (hj : s.jobs[t] = some j)
    (hx : s.extents[j.extent] = some x) (hd : drainOf j s = some k)
    (he : s.executing = some { seq := seq, request := .erase e (some k) (some w) })
    (hy : s.extents[e] = some y) :
    closeJob t j s =
      (let u := closedWith (closerOf t j) t j x s
       let stale := item1 0x57 (boolCode y.storeStale)
       let phase := item1 0x60 w.facts.phase.code
       match w.outcome with
       | .verified => ended .erase seq .ok [item1 0x51 y.key.code, stale, phase] u
       | .differs => ended .erase seq .storeNotVoided [stale, phase, item1 0x61 0x48] u
       | .failed f =>
         ended .erase seq .storeNotVoided [stale, phase, item1 0x61 f.result.code] u) := by
  rw [closeJob_of_drain hj hx hd, closedWith_of_drain hd,
    drainEnded_of_written (seq := seq) (e := e) (w := w) (y := y)
      (by simpa only [closerSent_executing] using he) (by simpa only [closerSent_extents] using hy)]
  cases w.outcome <;> rfl

/-- A record that is rewritten under its extent leaves the count of the records that name an extent. -/
theorem jobsNaming_of_rewritten {t : TagId} {j j' : Job} {s u : State} (e : ExtentId)
    (hj : s.jobs[t] = some j) (hu : u.jobs = s.jobs.set t (some j')) (he : j'.extent = j.extent) :
    jobsNaming e u = jobsNaming e s := by
  refine List.countP_congr fun i _ => ?_
  by_cases hi : t = i
  · subst hi
    have hut : u.jobs[t] = some j' := by simp [hu]
    rw [hut, hj, namesExtent, namesExtent, he]
  · have hui : u.jobs[i] = s.jobs[i] := by
      have : t.val ≠ i.val := fun h => hi (Fin.ext h)
      simp [hu, this]
    rw [hui]

/-- The part that the sector of a held result has left. -/
def sectorLeft (t : TagId) (j : Job) (h : HeldResult) (s : State) : State :=
  { s with
    outData := s.outData ++
      [{ tag := t, index := j.nextToEmit, fill := false, data := s.buffers[h.buffer].data
         trailer := if j.direction = .encipher then s.buffers[h.buffer].tag else none }]
    buffers := s.buffers.set h.buffer { use := .free, data := [], tag := none }
    jobs := s.jobs.set t (some j.emitted) }

/-- The last sector of an ACTIVE job leaves in RUN, and the job closes. -/
theorem exec_sectorOut_of_last {t : TagId} {j : Job} {h : HeldResult} {k : SlotId} {s : State}
    (hp : s.powered = true) (hrun : s.power = .run) (hnone : s.withheld = none)
    (hj : s.jobs[t] = some j) (ha : j.state = .active) (hm : j.mode = .cipher k)
    (hpipes : j.sectorsInPipes = 0) (hlast : j.nextToEmit + 1 = j.count)
    (hh : (j.hold.find? fun h => decide (h.index = j.nextToEmit)) = some h) (hfill : h.fill = false) :
    exec (.sectorOut t) s = .next (closeJob t j.emitted (sectorLeft t j h s)) := by
  have hi : h.index = j.nextToEmit := by simpa using List.find?_some hh
  have hemits : j.emits j.nextToEmit = true := by simp [Job.emits, ha]
  have hleft : freed h.buffer (setJob t (some j.emitted) (emitSector (heldSectorOut t j h s) s)) =
      sectorLeft t j h s := by
    rw [← releaseBuffer_eq_freed, releaseBuffer_of_none h.buffer (by exact hnone), heldSectorOut,
      hfill, hi]
    rfl
  have hjob : (sectorLeft t j h s).jobs[t] = some j.emitted := by simp [sectorLeft]
  have hdone : emittedAll j.emitted := by
    simp only [emittedAll, Job.emitted, ha]
    exact ⟨hpipes, hlast⟩
  have hpower : (closeJob t j.emitted (sectorLeft t j h s)).power ≠ .quiescing := by
    rw [(JobFrame.of_closeJob _ _ _).power]
    simp [sectorLeft, hrun]
  rw [exec_sectorOut t hp, acceptSector_of_held hj hm (readyResult_eq_some.2 ⟨hemits, hh⟩), hleft,
    closeIfDone_of_done hjob hdone, lockingStepIfDue_of_power hpower]

/-- Settles O19, by what waits for the job's slot: nothing, an ERASE still writing, or one that has written. -/
theorem lastSectorOutClosesJob : Obligations.LastSectorOutClosesJob := by
  unfold Obligations.LastSectorOutClosesJob
  refine ⟨fun t j => ?_, fun t s hj => closeIfDone_of_free hj, fun t j x s hj hx => ?_, ?_⟩
  · refine ⟨fun k ha hm h0 => ?_, fun k ha hm h0 => ?_, fun c ha hm => ?_, fun k c hs => ?_,
      fun k r hs => ?_, finished_iff j⟩
    · simp only [closerOf, ha, hm, h0, if_true]
    · simp only [closerOf, ha, hm, h0, if_false]
    · simp only [closerOf, ha, hm]
      cases c <;> rfl
    · simp only [closerOf, hs]
      cases c <;> rfl
    · simp only [closerOf, hs]
  · refine ⟨fun hleft => closeIfDone_of_left hj hleft, fun hdone hw => ?_,
      fun k seq e hdone hd he => ?_, fun k seq e w y hdone hd he hy => ?_⟩
    · rw [closeIfDone_of_done hj hdone]
      refine closeJob_of_unawaited hj hx fun k hd seq e w he => hw w ?_
      rw [hd]
      exact ⟨rfl, seq, e, he⟩
    · rw [closeIfDone_of_done hj hdone, closeJob_of_writing hj hx hd he]
    · refine (closeIfDone_of_done hj hdone).trans ((closeJob_of_written hj hx hd he hy).trans ?_)
      cases w.outcome <;> rfl
  · intro t j h k x s hp hrun hnone hj ha hm hsub hpipes hlast hh hfill hx hnaming
    have hjob : (sectorLeft t j h s).jobs[t] = some j.emitted := by simp [sectorLeft]
    have hnaming' : jobsNaming j.emitted.extent (sectorLeft t j h s) = 1 :=
      (jobsNaming_of_rewritten (j' := j.emitted) j.extent hj rfl rfl).trans hnaming
    have hcloser : closerOf t j.emitted =
        { tag := BitVec.ofNat 8 t.val, outcome := .done, cause := none, extent := some j.extent
          emitted := j.count, substituted := 0, faultIndex := none } := by
      simp only [closerOf, Job.emitted, ha, hm, hsub, if_true]
    have hmode : j.emitted.mode = .cipher k := hm
    refine ⟨fun e key hslot => ?_, fun key e y seq hslot hpins he hy => ?_⟩
    · have hdrain : drainOf j.emitted (sectorLeft t j h s) = none := by
        simp only [drainOf, hmode, sectorLeft, hslot]
      rw [exec_sectorOut_of_last hp hrun hnone hj ha hm hpipes hlast hh hfill,
        closeJob_of_noDrain (x := x) hjob hx hdrain]
      simp only [closedWith, hnaming', hmode, hcloser, closerSent, unpinnedSlot, if_true]
      simp only [sectorLeft, hslot, sent, Vector.set_set]
      rfl
    · have hdrain : drainOf j.emitted (sectorLeft t j h s) = some k := by
        simp only [drainOf, hmode, sectorLeft, hslot, hpins]
        rfl
      rw [exec_sectorOut_of_last hp hrun hnone hj ha hm hpipes hlast hh hfill,
        closeJob_of_written (x := x) hjob hx hdrain he hy]
      simp only [closedWith, hnaming', hmode, hcloser, closerSent, unpinnedSlot, if_true]
      simp only [sectorLeft, hslot, hpins, sent, Vector.set_set]
      rfl

end Sys2Proof.Machine
end

section
/-! PROOFS. Cuts (O20). A cut gives every tag its turn: the job's sectors are dropped, their buffers become FREE, and the
job closes if nothing of it is left. The turns are folded one component of the state at a time. -/

namespace Sys2Proof.Machine

/-! ## What buffers that become FREE do to the Job Table -/

/-- A job but for what it is next to receive, which alone a Sector In changes. -/
def Job.unreceived (j : Job) : Job := { j with nextToReceive := 0 }

/-- Two places of the Job Table hold jobs that differ at most in what they are next to receive, or none. -/
def alike (a b : Option Job) : Prop :=
  a.map Job.unreceived = b.map Job.unreceived

theorem alike.refl (a : Option Job) : alike a a := rfl

theorem alike.trans {a b c : Option Job} (h : alike a b) (k : alike b c) : alike a c :=
  Eq.trans h k

theorem alike_none {a : Option Job} : alike a none ↔ a = none := by
  simp [alike]

theorem alike_some {a : Option Job} {j : Job} :
    alike a (some j) ↔ ∃ n, a = some { j with nextToReceive := n } := by
  constructor
  · intro h
    rcases a with _ | i
    · simp [alike] at h
    · refine ⟨i.nextToReceive, congrArg some ?_⟩
      have h : i.unreceived = j.unreceived := by simpa [alike] using h
      calc i = { i.unreceived with nextToReceive := i.nextToReceive } := rfl
        _ = { j.unreceived with nextToReceive := i.nextToReceive } := by rw [h]
  · rintro ⟨n, rfl⟩
    rfl

/-- No Sector In of the job under a tag is withheld. -/
def unwithheld (t : TagId) (s : State) : Prop :=
  ∀ w, s.withheld = some w → w.tag ≠ t

theorem unwithheld_of_none {s : State} (t : TagId) (h : s.withheld = none) : unwithheld t s := by
  intro w hw
  rw [h] at hw
  contradiction

theorem getElem_jobs_set_ne {t i : TagId} (v : Vector (Option Job) 48) (j : Option Job) (h : t ≠ i) :
    (v.set t j)[i] = v[i] := by
  have : t.val ≠ i.val := fun e => h (Fin.ext e)
  simp [this]

theorem getElem_jobs_set_self (t : TagId) (v : Vector (Option Job) 48) (j : Option Job) :
    (v.set t j)[t] = j := by
  simp

/-- A buffer that becomes FREE changes of the Job Table at most what jobs are next to receive. -/
theorem freed_alike (b : BufferId) (t : TagId) (s : State) : alike (freed b s).jobs[t] s.jobs[t] := by
  rcases hj : s.jobs[t] with _ | j
  · rcases hw : s.withheld with _ | w
    · simp only [freed, hw, hj]
      rfl
    · rcases hv : s.jobs[w.tag] with _ | v
      · simp only [freed, hw, hv, hj]
        rfl
      · have hne : w.tag ≠ t := by
          rintro rfl
          rw [hj] at hv
          contradiction
        simp only [freed, hw, hv, getElem_jobs_set_ne _ _ hne, hj]
        rfl
  · exact alike_some.2 (freed_job b hj)

/-- It leaves a job of which no Sector In is withheld. -/
theorem freed_unwithheld (b : BufferId) {t : TagId} {s : State} (h : unwithheld t s) :
    (freed b s).jobs[t] = s.jobs[t] := by
  rcases hw : s.withheld with _ | w
  · simp only [freed, hw]
  · rcases hv : s.jobs[w.tag] with _ | v
    · simp only [freed, hw, hv]
    · simp only [freed, hw, hv, getElem_jobs_set_ne _ _ (h w hw)]

/-- Buffers that become FREE: the first may be taken by a withheld Sector In, the others stay FREE. -/
theorem releaseBuffers_cons (b : BufferId) (bs : List BufferId) (s : State) :
    releaseBuffers (b :: bs) s =
      { freed b s with
        buffers := Vector.ofFn fun c =>
          if c ∈ bs then Buffer.empty else (freed b s).buffers[c] } := by
  have hfreed : releaseBuffers (b :: bs) s = releaseBuffers bs (freed b s) := by
    rw [← releaseBuffer_eq_freed]
    rfl
  exact hfreed.trans (releaseBuffers_of_none (s := freed b s) bs (freed_withheld b s))

theorem releaseBuffers_alike (bs : List BufferId) (t : TagId) (s : State) :
    alike (releaseBuffers bs s).jobs[t] s.jobs[t] := by
  cases bs with
  | nil => exact .refl _
  | cons b bs =>
    rw [releaseBuffers_cons]
    exact freed_alike b t s

theorem releaseBuffers_unwithheld (bs : List BufferId) {t : TagId} {s : State} (h : unwithheld t s) :
    (releaseBuffers bs s).jobs[t] = s.jobs[t] := by
  cases bs with
  | nil => rfl
  | cons b bs =>
    rw [releaseBuffers_cons]
    show (freed b s).jobs[t] = s.jobs[t]
    rw [freed_unwithheld b h]

/-- Buffers that become FREE change buffers, what jobs are next to receive, the list and what is withheld. -/
theorem releaseBuffers_changes (bs : List BufferId) (s : State) :
    releaseBuffers bs s =
      { s with jobs := (releaseBuffers bs s).jobs, ready := (releaseBuffers bs s).ready
               buffers := (releaseBuffers bs s).buffers
               withheld := (releaseBuffers bs s).withheld } := by
  cases bs with
  | nil => rfl
  | cons b bs =>
    rw [releaseBuffers_cons]
    rcases hw : s.withheld with _ | w
    · simp only [freed, hw]
    · rcases hv : s.jobs[w.tag] with _ | v <;> simp only [freed, hw, hv]

/-! ## What a job that closes changes -/

/-- A drain that ends changes the executing request and its context, and may send its answer. -/
theorem drainEnded_changes (k : SlotId) (s : State) :
    drainEnded k s =
      { s with executing := (drainEnded k s).executing, context := (drainEnded k s).context
               outControl := (drainEnded k s).outControl } := by
  unfold drainEnded
  split
  · split
    · split
      · unfold answerErase
        split <;> rfl
      · rfl
    · rfl
  · rfl

/-- A released pin changes its slot, and besides what the end of a drain changes. -/
theorem unpin_changes (k : SlotId) (s : State) :
    unpin k s =
      { s with slots := s.slots.set k (unpinnedSlot s.slots[k])
               executing := (unpin k s).executing, context := (unpin k s).context
               outControl := (unpin k s).outControl } := by
  by_cases h : ∃ key, s.slots[k].state = .draining key ∧ s.slots[k].pins ≤ 1
  · obtain ⟨key, hk, hp⟩ := h
    rw [unpin_of_lastPin hk hp, drainEnded_changes]
  · have hother : unpin k s = { s with slots := s.slots.set k (unpinnedSlot s.slots[k]) } :=
      unpin_of_other fun key hk => Nat.lt_of_not_le fun hp => h ⟨key, hk, hp⟩
    rw [hother]

/-- No ERASE waits for a drain. -/
def drainUnawaited (s : State) : Prop :=
  ∀ seq e k w, s.executing ≠ some { seq := seq, request := .erase e (some k) w }

theorem unpin_of_unawaited (k : SlotId) {s : State} (h : drainUnawaited s) :
    unpin k s = { s with slots := s.slots.set k (unpinnedSlot s.slots[k]) } := by
  by_cases hd : ∃ key, s.slots[k].state = .draining key ∧ s.slots[k].pins ≤ 1
  · obtain ⟨key, hk, hp⟩ := hd
    exact (unpin_of_lastPin hk hp).trans (drainEnded_of_unawaited fun seq e w => h seq e k w)
  · exact unpin_of_other fun key hk => Nat.lt_of_not_le fun hp => hd ⟨key, hk, hp⟩

theorem unpinJob_changes (m : JobMode) (s : State) :
    unpinJob m s =
      { s with slots := slotsUnpinned m s, executing := (unpinJob m s).executing
               context := (unpinJob m s).context, outControl := (unpinJob m s).outControl } := by
  cases m with
  | cipher k => exact unpin_changes k s
  | fill c => rfl

theorem unpinJob_of_unawaited (m : JobMode) {s : State} (h : drainUnawaited s) :
    unpinJob m s = { s with slots := slotsUnpinned m s } := by
  cases m with
  | cipher k => exact unpin_of_unawaited k h
  | fill c => rfl

/-- The Closer of a job that a cut has ended carries no condition, and sets no flag. -/
theorem emitCloser_of_cut {j : Job} {k : Nat} {r : CutReason} (t : TagId) (s : State)
    (h : j.state = .ending k (.cut r)) :
    emitCloser (closerOf t j) s = emitControl (.closer (closerOf t j)) s := by
  simp only [emitCloser, closerOf, h, CloserCause.isCondition, Bool.false_and, Bool.false_eq_true,
    if_false]

/-- The timers after a job of an extent has closed. -/
def timersAfter (t : TagId) (j : Job) (s : State) : Vector IdleTimer 24 :=
  if jobsNaming j.extent (setJob t none s) = 0 then
    s.timers.set j.extent (judgedTimer true j.extent (setJob t none s))
  else s.timers

/-- A cut job that closes: its record is gone, its slot unpinned, and its extent's timer judged. -/
theorem closeJob_of_cut {j : Job} {k : Nat} {r : CutReason} (t : TagId) (s : State)
    (h : j.state = .ending k (.cut r)) :
    closeJob t j s =
      { s with jobs := s.jobs.set t none, slots := slotsUnpinned j.mode s, timers := timersAfter t j s
               executing := (closeJob t j s).executing, context := (closeJob t j s).context
               outControl := (closeJob t j s).outControl } := by
  unfold closeJob timersAfter
  rw [emitCloser_of_cut t s h, unpinJob_changes]
  simp only
  split_ifs with h0 h1 h1
  · rfl
  · exact absurd h0 h1
  · exact absurd h1 h0
  · rfl

theorem closeJob_of_cut_unawaited {j : Job} {k : Nat} {r : CutReason} (t : TagId) {s : State}
    (h : j.state = .ending k (.cut r)) (hd : drainUnawaited s) :
    (closeJob t j s).executing = s.executing ∧ (closeJob t j s).context = s.context ∧
      (closeJob t j s).outControl = s.outControl ++ [.closer (closerOf t j)] := by
  unfold closeJob
  rw [emitCloser_of_cut t s h, unpinJob_of_unawaited j.mode (by exact hd)]
  simp only
  split <;> exact ⟨rfl, rfl, rfl⟩

/-! ## One job's turn in a cut -/

/-- A job's turn in a cut: it is cut if the test names it, and closes if nothing of it is left (R19). -/
def cutTurn (named : Job → Bool) (r : CutReason) (s : State) (t : TagId) : State :=
  match s.jobs[t] with
  | none => s
  | some j => if named j then closeIfDone t (cutJob t r s) else s

theorem cutJobs_eq_foldl (named : Job → Bool) (r : CutReason) (s : State) :
    cutJobs named r s = (List.finRange 48).foldl (cutTurn named r) s := rfl

/-- The job under a tag is cut, if it is named; it has still to close. -/
def cutNamed (named : Job → Bool) (r : CutReason) (t : TagId) (s : State) : State :=
  match s.jobs[t] with
  | none => s
  | some j => if named j then cutJob t r s else s

/-- The buffers that a job's turn makes FREE, in their order. -/
def turnBuffers (named : Job → Bool) (s : State) (t : TagId) : List BufferId :=
  match s.jobs[t] with
  | some j =>
    if newlyCut named j then
      ((s.ready.filter (ReadyEntry.dropped t j.nextToEmit)).map ReadyEntry.buffer)
        ++ (j.hold.filter fun h => decide (j.nextToEmit ≤ h.index)).map HeldResult.buffer
    else []
  | none => []

theorem cutBuffers_eq_flatMap (named : Job → Bool) (s : State) :
    cutBuffers named s = (List.finRange 48).flatMap (turnBuffers named s) := rfl

/-- The record under a tag after its turn, before it closes. -/
def recordCut (named : Job → Bool) (r : CutReason) (j : Option Job) : Option Job :=
  j.map fun j => if named j then cutOff r j else j

/-- The part in a job's turn, with the buffers of its dropped sectors still to be freed. -/
def sectorsDropped (named : Job → Bool) (r : CutReason) (t : TagId) (s : State) : State :=
  { s with
    jobs := s.jobs.set t (recordCut named r s.jobs[t])
    ready := s.ready.filter fun g => !(decide (g.tag = t) && cutEntry named s g)
    withheld :=
      if (s.jobs[t].any (newlyCut named)) = true then discardWithheld t s.withheld else s.withheld }

section
variable {named : Job → Bool} {r : CutReason} {t : TagId} {j : Job} {s : State}

/-- A cut has ended the job (R3). -/
def endedByCut (j : Job) : Prop :=
  ∃ k q, j.state = .ending k (.cut q)

theorem cutOff_of_ended (r : CutReason) (h : endedByCut j) : cutOff r j = j := by
  obtain ⟨k, q, hs⟩ := h
  simp only [cutOff, hs]

theorem cutOff_of_open (r : CutReason) (h : ¬endedByCut j) :
    cutOff r j =
      { j with
        state := .ending j.nextToEmit (.cut r)
        hold := j.hold.filter fun h => decide (h.index < j.nextToEmit) } := by
  cases hs : j.state with
  | active => simp only [cutOff, hs]
  | ending k why =>
    cases why with
    | stop c => simp only [cutOff, hs]
    | cut q => exact absurd ⟨k, q, hs⟩ h

theorem cutJob_of_ended (r : CutReason) (hj : s.jobs[t] = some j) (h : endedByCut j) :
    cutJob t r s = s := by
  obtain ⟨k, q, hs⟩ := h
  simp only [cutJob, hj, hs]

theorem cutJob_of_open (r : CutReason) (hj : s.jobs[t] = some j) (h : ¬endedByCut j) :
    cutJob t r s = endJob t j.nextToEmit (.cut r) s := by
  cases hs : j.state with
  | active => simp only [cutJob, hj, hs]
  | ending k why =>
    cases why with
    | stop c => simp only [cutJob, hj, hs]
    | cut q => exact absurd ⟨k, q, hs⟩ h

theorem newlyCut_iff : newlyCut named j = true ↔ named j = true ∧ ¬endedByCut j := by
  cases hs : j.state with
  | active => simp [newlyCut, endedByCut, hs]
  | ending k why => cases why <;> simp [newlyCut, endedByCut, hs]

theorem endedByCut_of_named (hnamed : named j = true) (hn : newlyCut named j = false) :
    endedByCut j := by
  by_contra h
  rw [newlyCut_iff.2 ⟨hnamed, h⟩] at hn
  contradiction

theorem named_of_newlyCut (hn : newlyCut named j = true) : named j = true := by
  obtain ⟨hnamed, -⟩ := newlyCut_iff.1 hn
  exact hnamed

theorem open_of_newlyCut (hn : newlyCut named j = true) : ¬endedByCut j := by
  obtain ⟨-, hopen⟩ := newlyCut_iff.1 hn
  exact hopen

/-- A turn that newly cuts no job leaves the part. -/
theorem sectorsDropped_of_kept (h : ∀ j, s.jobs[t] = some j → newlyCut named j = false) :
    sectorsDropped named r t s = s := by
  have hrec : recordCut named r s.jobs[t] = s.jobs[t] := by
    rcases hj : s.jobs[t] with _ | j
    · rfl
    · by_cases hn : named j = true
      · simp [recordCut, hn, cutOff_of_ended r (endedByCut_of_named hn (h j hj))]
      · simp [recordCut, hn]
  have hany : ¬s.jobs[t].any (newlyCut named) = true := by
    rcases hj : s.jobs[t] with _ | j
    · simp
    · simp [h j hj]
  have hready : (s.ready.filter fun g => !(decide (g.tag = t) && cutEntry named s g)) = s.ready := by
    refine List.filter_eq_self.2 fun g _ => ?_
    by_cases hg : g.tag = t
    · subst hg
      rcases hj : s.jobs[g.tag] with _ | j
      · simp [cutEntry, hj]
      · simp [cutEntry, hj, h j hj]
    · simp [hg]
  have hself : s.jobs.set t s.jobs[t] = s.jobs := Vector.set_getElem_self ..
  rw [sectorsDropped, hrec, hready, if_neg hany, hself]

theorem turnBuffers_of_kept (h : ∀ j, s.jobs[t] = some j → newlyCut named j = false) :
    turnBuffers named s t = [] := by
  rcases hj : s.jobs[t] with _ | j
  · simp only [turnBuffers, hj]
  · simp only [turnBuffers, hj, h j hj, Bool.false_eq_true, if_false]

theorem sectorsDropped_of_newlyCut {k : Nat} (hj : s.jobs[t] = some j) (hn : newlyCut named j = true)
    (hk : k = j.nextToEmit) :
    sectorsDropped named r t s =
      setJob t
        (some { j with state := .ending k (.cut r), hold := j.hold.filter fun h => decide (h.index < k) })
        { s with ready := s.ready.filter fun g => !ReadyEntry.dropped t k g
                 withheld := discardWithheld t s.withheld } := by
  subst hk
  have hrec : recordCut named r s.jobs[t] = some (cutOff r j) := by
    simp [recordCut, hj, named_of_newlyCut hn]
  have hany : s.jobs[t].any (newlyCut named) = true := by simp [hj, hn]
  have hready : (s.ready.filter fun g => !(decide (g.tag = t) && cutEntry named s g)) =
      s.ready.filter fun g => !ReadyEntry.dropped t j.nextToEmit g := by
    refine List.filter_congr fun g _ => ?_
    by_cases hg : g.tag = t
    · subst hg
      simp [cutEntry, ReadyEntry.dropped, hj, hn]
    · simp [ReadyEntry.dropped, hg]
  rw [sectorsDropped, hrec, hready, if_pos hany, cutOff_of_open r (open_of_newlyCut hn)]
  rfl

/-- A job is cut: its sectors are dropped, and then their buffers become FREE. -/
theorem cutNamed_eq (named : Job → Bool) (r : CutReason) (t : TagId) (s : State) :
    cutNamed named r t s = releaseBuffers (turnBuffers named s t) (sectorsDropped named r t s) := by
  by_cases h : ∃ j, s.jobs[t] = some j ∧ newlyCut named j = true
  · obtain ⟨j, hj, hn⟩ := h
    rw [sectorsDropped_of_newlyCut hj hn rfl]
    simp only [cutNamed, turnBuffers, hj, hn, named_of_newlyCut hn, if_true,
      cutJob_of_open r hj (open_of_newlyCut hn), endJob]
  · have h : ∀ j, s.jobs[t] = some j → newlyCut named j = false := fun j hj =>
      Bool.eq_false_iff.2 fun hn => h ⟨j, hj, hn⟩
    rw [turnBuffers_of_kept h, sectorsDropped_of_kept h]
    rcases hj : s.jobs[t] with _ | j
    · simp only [cutNamed, hj]
      rfl
    · by_cases hn : named j = true
      · simp only [cutNamed, hj, hn, if_true,
          cutJob_of_ended r hj (endedByCut_of_named hn (h j hj))]
        rfl
      · simp only [cutNamed, hj, hn]
        rfl

/-- A turn discards what is withheld or leaves it. -/
theorem sectorsDropped_withheld (named : Job → Bool) (r : CutReason) (t : TagId) (s : State) :
    (sectorsDropped named r t s).withheld = none ∨
      (sectorsDropped named r t s).withheld = s.withheld := by
  rcases hs : s.withheld with _ | w
  · simp [sectorsDropped, hs, discardWithheld]
  · by_cases h : w.tag = t <;> simp [sectorsDropped, hs, discardWithheld, h]

theorem sectorsDropped_unwithheld_self (h : turnBuffers named s t ≠ []) :
    unwithheld t (sectorsDropped named r t s) := by
  have hany : s.jobs[t].any (newlyCut named) = true := by
    by_contra hany
    refine h (turnBuffers_of_kept fun j hj => ?_)
    simpa [hj] using hany
  intro w hw
  rw [sectorsDropped, if_pos hany] at hw
  rcases hs : s.withheld with _ | v
  · simp [hs, discardWithheld] at hw
  · simp only [hs, discardWithheld] at hw
    split_ifs at hw with ht
    cases hw
    exact ht

theorem sectorsDropped_unwithheld {i : TagId} (h : unwithheld i s) :
    unwithheld i (sectorsDropped named r t s) := by
  intro w hw
  obtain hnone | hsame := sectorsDropped_withheld named r t s
  · rw [hnone] at hw
    contradiction
  · exact h w (hsame ▸ hw)

/-- The record of a job after its own turn, before it closes. -/
theorem cutNamed_job_self (named : Job → Bool) (r : CutReason) (t : TagId) (s : State) :
    (cutNamed named r t s).jobs[t] = recordCut named r s.jobs[t] := by
  rw [cutNamed_eq]
  by_cases h : turnBuffers named s t = []
  · rw [h]
    exact getElem_jobs_set_self ..
  · rw [releaseBuffers_unwithheld _ (sectorsDropped_unwithheld_self h)]
    exact getElem_jobs_set_self ..

/-- Another job's turn changes of a record at most what the job is next to receive. -/
theorem cutNamed_alike (named : Job → Bool) (r : CutReason) {t i : TagId} (s : State) (h : t ≠ i) :
    alike (cutNamed named r t s).jobs[i] s.jobs[i] := by
  rw [cutNamed_eq]
  refine (releaseBuffers_alike _ i _).trans ?_
  rw [sectorsDropped, getElem_jobs_set_ne _ _ h]
  exact .refl _

theorem cutNamed_unwithheld (named : Job → Bool) (r : CutReason) {t i : TagId} {s : State} (h : t ≠ i)
    (hw : unwithheld i s) : (cutNamed named r t s).jobs[i] = s.jobs[i] := by
  rw [cutNamed_eq, releaseBuffers_unwithheld _ (sectorsDropped_unwithheld hw), sectorsDropped,
    getElem_jobs_set_ne _ _ h]

theorem cutNamed_changes (named : Job → Bool) (r : CutReason) (t : TagId) (s : State) :
    cutNamed named r t s =
      { s with jobs := (cutNamed named r t s).jobs, ready := (cutNamed named r t s).ready
               buffers := (cutNamed named r t s).buffers
               withheld := (cutNamed named r t s).withheld } := by
  rw [cutNamed_eq, releaseBuffers_changes]
  rfl

/-- A job that a turn leaves with nothing to emit closes. -/
def closeCut (o : Option Job) (t : TagId) (s : State) : State :=
  match o with
  | some j => closeJob t j s
  | none => s

theorem cutTurn_eq (named : Job → Bool) (r : CutReason) (s : State) (t : TagId) :
    cutTurn named r s t = closeCut (cutCloses named r s t) t (cutNamed named r t s) := by
  have hself := cutNamed_job_self named r t s
  rcases hj : s.jobs[t] with _ | j
  · simp only [cutTurn, cutNamed, cutCloses, closeCut, hj]
  · by_cases hn : named j = true
    · rw [hj] at hself
      simp only [recordCut, Option.map_some, hn, if_true] at hself
      have hcut : cutNamed named r t s = cutJob t r s := by
        simp only [cutNamed, hj, hn, if_true]
      rw [hcut] at hself ⊢
      simp only [cutTurn, cutCloses, hj, hn, if_true, Bool.true_and, closeIfDone, hself]
      split_ifs <;> rfl
    · simp only [cutTurn, cutNamed, cutCloses, closeCut, hj, hn, Bool.false_and, Bool.false_eq_true,
        if_false]

theorem endedByCut_cutOff (r : CutReason) (j : Job) : endedByCut (cutOff r j) := by
  by_cases h : endedByCut j
  · rwa [cutOff_of_ended r h]
  · rw [cutOff_of_open r h]
    exact ⟨_, _, rfl⟩

theorem cutCloses_eq_some {j : Job} (h : cutCloses named r s t = some j) :
    ∃ i, s.jobs[t] = some i ∧ named i = true ∧ (cutOff r i).finished = true ∧ cutOff r i = j := by
  rcases hi : s.jobs[t] with _ | i
  · simp [cutCloses, hi] at h
  · simp only [cutCloses, hi] at h
    split_ifs at h with hc
    obtain ⟨hn, hf⟩ := (Bool.and_eq_true _ _).mp hc
    exact ⟨i, rfl, hn, hf, Option.some.inj h⟩

/-- A job that a cut closes is one that a cut has ended. -/
theorem cutCloses_state {j : Job} (h : cutCloses named r s t = some j) :
    endedByCut j := by
  obtain ⟨i, -, -, -, rfl⟩ := cutCloses_eq_some h
  exact endedByCut_cutOff r i

/-- The record under a tag when its turn has ended. -/
def recordAfter (named : Job → Bool) (r : CutReason) (o : Option Job) : Option Job :=
  o.bind fun j =>
    if named j then if (cutOff r j).finished then none else some (cutOff r j) else some j

/-- A turn closes its job or leaves it; the list, the buffers and what is withheld are not touched by that. -/
theorem cutTurn_pool (named : Job → Bool) (r : CutReason) (s : State) (t : TagId) :
    (cutTurn named r s t).ready = (cutNamed named r t s).ready ∧
      (cutTurn named r s t).buffers = (cutNamed named r t s).buffers ∧
      (cutTurn named r s t).withheld = (cutNamed named r t s).withheld := by
  rw [cutTurn_eq]
  rcases hc : cutCloses named r s t with _ | j
  · exact ⟨rfl, rfl, rfl⟩
  · obtain ⟨k, q, hs⟩ := cutCloses_state hc
    rw [closeCut, closeJob_of_cut _ _ hs]
    exact ⟨rfl, rfl, rfl⟩

theorem cutTurn_job_self (named : Job → Bool) (r : CutReason) (s : State) (t : TagId) :
    (cutTurn named r s t).jobs[t] = recordAfter named r s.jobs[t] := by
  have hself := cutNamed_job_self named r t s
  rw [cutTurn_eq]
  rcases hc : cutCloses named r s t with _ | j
  · rw [closeCut, hself]
    rcases hj : s.jobs[t] with _ | i
    · rfl
    · simp only [cutCloses, hj] at hc
      simp only [recordCut, recordAfter, Option.map_some, Option.bind_some]
      grind
  · obtain ⟨k, q, hs⟩ := cutCloses_state hc
    obtain ⟨i, hi, hn, hf, -⟩ := cutCloses_eq_some hc
    rw [closeCut, closeJob_of_cut _ _ hs]
    simp [recordAfter, hi, hn, hf]

theorem cutTurn_job_ne (named : Job → Bool) (r : CutReason) {t i : TagId} (s : State) (h : t ≠ i) :
    (cutTurn named r s t).jobs[i] = (cutNamed named r t s).jobs[i] := by
  rw [cutTurn_eq]
  rcases hc : cutCloses named r s t with _ | j
  · rfl
  · obtain ⟨k, q, hs⟩ := cutCloses_state hc
    rw [closeCut, closeJob_of_cut _ _ hs, getElem_jobs_set_ne _ _ h]

theorem cutTurn_alike (named : Job → Bool) (r : CutReason) {t i : TagId} (s : State) (h : t ≠ i) :
    alike (cutTurn named r s t).jobs[i] s.jobs[i] := by
  rw [cutTurn_job_ne named r s h]
  exact cutNamed_alike named r s h

theorem cutTurn_job_of_unwithheld (named : Job → Bool) (r : CutReason) {t i : TagId} {s : State}
    (h : t ≠ i) (hw : unwithheld i s) : (cutTurn named r s t).jobs[i] = s.jobs[i] := by
  rw [cutTurn_job_ne named r s h, cutNamed_unwithheld named r h hw]

/-- Buffers that become FREE leave what is withheld, or nothing is withheld any longer. -/
theorem releaseBuffers_withheld (bs : List BufferId) (s : State) :
    (releaseBuffers bs s).withheld = none ∨ (releaseBuffers bs s).withheld = s.withheld := by
  cases bs with
  | nil => exact .inr rfl
  | cons b bs =>
    rw [releaseBuffers_cons]
    exact .inl (freed_withheld b s)

theorem cutTurn_withheld (named : Job → Bool) (r : CutReason) (s : State) (t : TagId) :
    (cutTurn named r s t).withheld = none ∨ (cutTurn named r s t).withheld = s.withheld := by
  obtain ⟨-, -, hw⟩ := cutTurn_pool named r s t
  rw [hw, cutNamed_eq]
  obtain h | h := releaseBuffers_withheld (turnBuffers named s t) (sectorsDropped named r t s)
  · exact .inl h
  · rw [h]
    exact sectorsDropped_withheld named r t s

theorem cutTurn_unwithheld {i : TagId} (h : unwithheld i s) :
    unwithheld i (cutTurn named r s t) := by
  intro w hw
  obtain hnone | hsame := cutTurn_withheld named r s t
  · rw [hnone] at hw
    contradiction
  · exact h w (hsame ▸ hw)

end

/-! ## The turns of a cut, one after the other -/

section
variable {named : Job → Bool} {r : CutReason}

/-- A test of jobs that does not go by what the job is next to receive, as those of all cuts are. -/
abbrev ignoresReceipt (named : Job → Bool) : Prop :=
  ∀ j n, named { j with nextToReceive := n } = named j

/-- What a cut does to a job does not go by what the job is next to receive. -/
theorem cutOff_received (r : CutReason) (j : Job) (n : Nat) :
    cutOff r { j with nextToReceive := n } = { cutOff r j with nextToReceive := n } := by
  have hiff : endedByCut { j with nextToReceive := n } ↔ endedByCut j := Iff.rfl
  by_cases h : endedByCut j
  · rw [cutOff_of_ended r h, cutOff_of_ended r (hiff.2 h)]
  · rw [cutOff_of_open r h, cutOff_of_open r (mt hiff.1 h)]

theorem newlyCut_received (hnamed : ignoresReceipt named) (j : Job)
    (n : Nat) : newlyCut named { j with nextToReceive := n } = newlyCut named j := by
  simp only [newlyCut, hnamed]

theorem recordAfter_alike (hnamed : ignoresReceipt named)
    {a b : Option Job} (h : alike a b) : alike (recordAfter named r a) (recordAfter named r b) := by
  rcases b with _ | j
  · rw [alike_none.1 h]
    exact .refl _
  · obtain ⟨n, rfl⟩ := alike_some.1 h
    have hf : ({ cutOff r j with nextToReceive := n } : Job).finished = (cutOff r j).finished := rfl
    simp only [recordAfter, Option.bind_some, hnamed, cutOff_received, hf]
    split_ifs <;> rfl

theorem cutCloses_alike (hnamed : ignoresReceipt named) {i : TagId}
    {s u : State} (h : alike u.jobs[i] s.jobs[i]) :
    alike (cutCloses named r u i) (cutCloses named r s i) := by
  rcases hj : s.jobs[i] with _ | j
  · rw [hj, alike_none] at h
    simp only [cutCloses, h, hj]
    exact .refl _
  · rw [hj] at h
    obtain ⟨n, hn⟩ := alike_some.1 h
    have hf : ({ cutOff r j with nextToReceive := n } : Job).finished = (cutOff r j).finished := rfl
    simp only [cutCloses, hj, hn, hnamed, cutOff_received, hf]
    split_ifs <;> rfl

/-- The Job Table after the turns of some tags, but for what jobs are next to receive. -/
theorem cutTurns_alike (hnamed : ignoresReceipt named) {ts : List TagId}
    (hts : ts.Nodup) (i : TagId) (s : State) :
    alike (ts.foldl (cutTurn named r) s).jobs[i]
      (if i ∈ ts then recordAfter named r s.jobs[i] else s.jobs[i]) := by
  induction ts generalizing s with
  | nil => exact .refl _
  | cons t ts ih =>
    obtain ⟨ht, hts⟩ := List.nodup_cons.1 hts
    refine (ih hts (cutTurn named r s t)).trans ?_
    by_cases hi : t = i
    · subst hi
      rw [if_neg ht, if_pos List.mem_cons_self, cutTurn_job_self]
      exact .refl _
    · have h := cutTurn_alike named r s hi
      by_cases hm : i ∈ ts
      · rw [if_pos hm, if_pos (List.mem_cons_of_mem t hm)]
        exact recordAfter_alike hnamed h
      · rw [if_neg hm, if_neg (by simp [hm, Ne.symm hi])]
        exact h

/-- The record of a job of which no Sector In is withheld, exactly. -/
theorem cutTurns_job_of_unwithheld {ts : List TagId} (hts : ts.Nodup) {i : TagId} {s : State}
    (hw : unwithheld i s) :
    (ts.foldl (cutTurn named r) s).jobs[i] =
      if i ∈ ts then recordAfter named r s.jobs[i] else s.jobs[i] := by
  induction ts generalizing s with
  | nil => rfl
  | cons t ts ih =>
    obtain ⟨ht, hts⟩ := List.nodup_cons.1 hts
    refine (ih hts (cutTurn_unwithheld hw)).trans ?_
    by_cases hi : t = i
    · subst hi
      rw [if_neg ht, if_pos List.mem_cons_self, cutTurn_job_self]
    · rw [cutTurn_job_of_unwithheld named r hi hw]
      simp only [List.mem_cons, Ne.symm hi, false_or]

/-- A turn leaves what the jobs of later turns do when they close. -/
theorem cutCloses_later (hnamed : ignoresReceipt named) {t i : TagId}
    {ts : List TagId} (s : State) (ht : t ∉ ts) (hi : i ∈ ts) :
    alike (cutCloses named r (cutTurn named r s t) i) (cutCloses named r s i) := by
  refine cutCloses_alike hnamed (cutTurn_alike named r s ?_)
  rintro rfl
  exact ht hi

theorem countP_cutCloses (hnamed : ignoresReceipt named)
    (f : Option Job → Bool) (hf : ∀ a b, alike a b → f a = f b) {t : TagId} {ts : List TagId} {s : State}
    (ht : t ∉ ts) :
    ts.countP (fun i => f (cutCloses named r (cutTurn named r s t) i)) =
      ts.countP fun i => f (cutCloses named r s i) :=
  List.countP_congr fun _ hi => by rw [hf _ _ (cutCloses_later hnamed s ht hi)]

/-! ## The slots -/

/-- A job pins a slot. -/
def pinsSlot (k : SlotId) (o : Option Job) : Bool :=
  match o with
  | some j => decide (j.mode = .cipher k)
  | none => false

theorem cutPins_eq_countP (named : Job → Bool) (r : CutReason) (k : SlotId) (s : State) :
    cutPins named r k s = (List.finRange 48).countP fun t => pinsSlot k (cutCloses named r s t) := rfl

theorem pinsSlot_alike (k : SlotId) {a b : Option Job} (h : alike a b) : pinsSlot k a = pinsSlot k b := by
  rcases b with _ | j
  · rw [alike_none.1 h]
  · obtain ⟨n, rfl⟩ := alike_some.1 h
    rfl

theorem slotsUnpinned_slot (m : JobMode) (k : SlotId) (s : State) :
    (slotsUnpinned m s)[k] = if m = .cipher k then unpinnedSlot s.slots[k] else s.slots[k] := by
  cases m with
  | fill c => simp [slotsUnpinned]
  | cipher n =>
    by_cases h : n = k
    · subst h
      simp [slotsUnpinned]
    · have : n.val ≠ k.val := fun e => h (Fin.ext e)
      simp [slotsUnpinned, h, this]

theorem cutTurn_slot (named : Job → Bool) (r : CutReason) (s : State) (t : TagId) (k : SlotId) :
    (cutTurn named r s t).slots[k] =
      if pinsSlot k (cutCloses named r s t) then unpinnedSlot s.slots[k] else s.slots[k] := by
  have hslots : (cutNamed named r t s).slots = s.slots := by rw [cutNamed_changes]
  rw [cutTurn_eq]
  rcases hc : cutCloses named r s t with _ | j
  · rw [closeCut, hslots]
    rfl
  · obtain ⟨n, q, hs⟩ := cutCloses_state hc
    rw [closeCut, closeJob_of_cut _ _ hs]
    refine (slotsUnpinned_slot j.mode k _).trans ?_
    simp only [hslots, pinsSlot, decide_eq_true_eq]

/-- Each job that closes releases its pin. -/
theorem cutTurns_slot (hnamed : ignoresReceipt named) {ts : List TagId}
    (hts : ts.Nodup) (k : SlotId) (s : State) :
    (ts.foldl (cutTurn named r) s).slots[k] =
      unpinnedSlot^[ts.countP fun t => pinsSlot k (cutCloses named r s t)] s.slots[k] := by
  induction ts generalizing s with
  | nil => rfl
  | cons t ts ih =>
    obtain ⟨ht, hts⟩ := List.nodup_cons.1 hts
    rw [List.foldl_cons, ih hts, countP_cutCloses hnamed (pinsSlot k) (fun _ _ => pinsSlot_alike k) ht,
      cutTurn_slot, List.countP_cons]
    split_ifs
    · rw [Function.iterate_succ_apply]
    · rfl

theorem unpinnedSlot_iterate_of_notDraining (n : Nat) {v : Slot} (h : ∀ key, v.state ≠ .draining key) :
    unpinnedSlot^[n] v = { v with pins := v.pins - n } := by
  induction n generalizing v with
  | zero => rfl
  | succ n ih =>
    have hone : unpinnedSlot v = { v with pins := v.pins - 1 } := by
      cases hv : v.state with
      | draining key => exact absurd hv (h key)
      | empty => simp only [unpinnedSlot, hv]
      | loading e => simp only [unpinnedSlot, hv]
      | ready e key => simp only [unpinnedSlot, hv]
    rw [Function.iterate_succ_apply, hone, ih (v := { v with pins := v.pins - 1 }) h]
    simp only [Nat.sub_sub, Nat.add_comm 1 n]

theorem unpinnedSlot_iterate_of_draining (n : Nat) {v : Slot} {key : LoadedKey}
    (h : v.state = .draining key) :
    unpinnedSlot^[n] v =
      if n ≠ 0 ∧ v.pins ≤ n then Slot.empty else { v with pins := v.pins - n } := by
  induction n generalizing v with
  | zero => simp
  | succ n ih =>
    rw [Function.iterate_succ_apply]
    by_cases hp : v.pins ≤ 1
    · have hone : unpinnedSlot v = Slot.empty := by
        simp only [unpinnedSlot, h, hp, if_true]
        rfl
      rw [hone, unpinnedSlot_iterate_of_notDraining n (by simp [Slot.empty]), if_pos (by omega)]
      simp [Slot.empty]
    · have hone : unpinnedSlot v = { v with pins := v.pins - 1 } := by
        simp only [unpinnedSlot, h, hp, if_false]
      rw [hone, ih (v := { v with pins := v.pins - 1 }) h]
      have hiff : (n ≠ 0 ∧ v.pins - 1 ≤ n) ↔ (n + 1 ≠ 0 ∧ v.pins ≤ n + 1) := by omega
      simp only [hiff, Nat.sub_sub, Nat.add_comm 1 n]

/-! ## The timers -/

/-- A job names an extent. -/
theorem namesExtent_alike (e : ExtentId) {a b : Option Job} (h : alike a b) :
    namesExtent e a = namesExtent e b := by
  rcases b with _ | j
  · rw [alike_none.1 h]
  · obtain ⟨n, rfl⟩ := alike_some.1 h
    rfl

theorem cutOff_extent (r : CutReason) (j : Job) : (cutOff r j).extent = j.extent := by
  by_cases h : endedByCut j
  · rw [cutOff_of_ended r h]
  · rw [cutOff_of_open r h]

theorem cutNamed_naming (named : Job → Bool) (r : CutReason) (t : TagId) (e : ExtentId) (s : State) :
    jobsNaming e (cutNamed named r t s) = jobsNaming e s := by
  refine List.countP_congr fun i _ => ?_
  by_cases hi : t = i
  · subst hi
    rw [cutNamed_job_self]
    rcases s.jobs[t] with _ | j
    · rfl
    · by_cases hn : named j = true <;> simp [recordCut, namesExtent, hn, cutOff_extent]
  · rw [namesExtent_alike e (cutNamed_alike named r s hi)]

/-- Removing a record leaves the count of the records that name another extent. -/
theorem jobsNaming_removed_other {t : TagId} {j : Job} {e : ExtentId} {s u : State}
    (hj : s.jobs[t] = some j) (hu : u.jobs = s.jobs.set t none) (he : j.extent ≠ e) :
    jobsNaming e u = jobsNaming e s := by
  refine List.countP_congr fun i _ => ?_
  rw [hu]
  by_cases hi : t = i
  · subst hi
    rw [getElem_jobs_set_self, hj]
    simp [namesExtent, he]
  · rw [getElem_jobs_set_ne _ _ hi]

/-- A turn lowers the count of the records that name an extent by the job that it closes. -/
theorem cutTurn_naming (named : Job → Bool) (r : CutReason) (s : State) (t : TagId) (e : ExtentId) :
    jobsNaming e (cutTurn named r s t) +
        (if namesExtent e (cutCloses named r s t) = true then 1 else 0) = jobsNaming e s := by
  rw [cutTurn_eq, ← cutNamed_naming named r t e s]
  rcases hc : cutCloses named r s t with _ | j
  · rfl
  · obtain ⟨n, q, hs⟩ := cutCloses_state hc
    obtain ⟨i, hi, hn, -, rfl⟩ := cutCloses_eq_some hc
    have hjob : (cutNamed named r t s).jobs[t] = some (cutOff r i) := by
      rw [cutNamed_job_self, hi]
      simp [recordCut, hn]
    have hgone : (closeJob t (cutOff r i) (cutNamed named r t s)).jobs =
        (cutNamed named r t s).jobs.set t none := by rw [closeJob_of_cut _ _ hs]
    rw [closeCut]
    by_cases he : (cutOff r i).extent = e
    · subst he
      rw [← jobsNaming_removed hjob hgone]
      simp [namesExtent]
    · rw [jobsNaming_removed_other hjob hgone he]
      simp [namesExtent, he]

theorem cutTurns_naming (hnamed : ignoresReceipt named)
    {ts : List TagId} (hts : ts.Nodup) (e : ExtentId) (s : State) :
    jobsNaming e (ts.foldl (cutTurn named r) s) +
        ts.countP (fun t => namesExtent e (cutCloses named r s t)) = jobsNaming e s := by
  induction ts generalizing s with
  | nil => rfl
  | cons t ts ih =>
    obtain ⟨ht, hts⟩ := List.nodup_cons.1 hts
    have h1 := ih hts (cutTurn named r s t)
    have h2 := cutTurn_naming named r s t e
    rw [countP_cutCloses hnamed (namesExtent e) (fun _ _ => namesExtent_alike e) ht] at h1
    rw [List.foldl_cons, List.countP_cons]
    omega

theorem cutTurn_extents (named : Job → Bool) (r : CutReason) (s : State) (t : TagId) :
    (cutTurn named r s t).extents = s.extents := by
  have hextents : (cutNamed named r t s).extents = s.extents := by rw [cutNamed_changes]
  rw [cutTurn_eq]
  rcases hc : cutCloses named r s t with _ | j
  · exact hextents
  · rw [closeCut, (JobFrame.of_closeJob _ _ _).extents, hextents]

/-- The timer of an extent that the closing job leaves without jobs starts anew. -/
theorem cutTurn_timer (named : Job → Bool) (r : CutReason) {s : State} (t : TagId) {e : ExtentId}
    {x : Extent} (hx : s.extents[e] = some x) :
    (cutTurn named r s t).timers[e] =
      if namesExtent e (cutCloses named r s t) = true ∧ jobsNaming e (cutTurn named r s t) = 0 then
        freshTimer x 0
      else s.timers[e] := by
  have htimers : (cutNamed named r t s).timers = s.timers := by rw [cutNamed_changes]
  have hextents : (cutNamed named r t s).extents = s.extents := by rw [cutNamed_changes]
  rw [cutTurn_eq]
  rcases hc : cutCloses named r s t with _ | j
  · simp [closeCut, htimers, namesExtent]
  · obtain ⟨n, q, hs⟩ := cutCloses_state hc
    have hjobs : (closeJob t j (cutNamed named r t s)).jobs = (setJob t none (cutNamed named r t s)).jobs := by
      rw [closeJob_of_cut _ _ hs]
      rfl
    rw [closeCut, jobsNaming_of_jobs hjobs, closeJob_of_cut _ _ hs]
    simp only [timersAfter, htimers]
    by_cases he : j.extent = e
    · subst he
      by_cases h0 : jobsNaming j.extent (setJob t none (cutNamed named r t s)) = 0
      · have hjudged : judgedTimer true j.extent (setJob t none (cutNamed named r t s)) = freshTimer x 0 := by
          rw [judgedTimer_restart (x := x) (by rw [setJob_extents, hextents]; exact hx), h0]
        simp [h0, hjudged, namesExtent]
      · simp [h0]
    · have hne : j.extent.val ≠ e.val := fun h => he (Fin.ext h)
      have hnot : namesExtent e (some j) = false := by simp [namesExtent, he]
      simp only [hnot, Bool.false_eq_true, false_and, if_false]
      split_ifs
      · simp [hne]
      · rfl

theorem cutTurns_timer (hnamed : ignoresReceipt named)
    {ts : List TagId} (hts : ts.Nodup) {e : ExtentId} {x : Extent} {s : State}
    (hx : s.extents[e] = some x) :
    (ts.foldl (cutTurn named r) s).timers[e] =
      if (∃ t ∈ ts, namesExtent e (cutCloses named r s t) = true) ∧
          jobsNaming e (ts.foldl (cutTurn named r) s) = 0 then
        freshTimer x 0
      else s.timers[e] := by
  induction ts generalizing s with
  | nil => simp
  | cons t ts ih =>
    obtain ⟨ht, hts⟩ := List.nodup_cons.1 hts
    have hlater : (∃ i ∈ ts, namesExtent e (cutCloses named r (cutTurn named r s t) i) = true) ↔
        ∃ i ∈ ts, namesExtent e (cutCloses named r s i) = true := by
      refine exists_congr fun i => and_congr_right fun hi => ?_
      rw [namesExtent_alike e (cutCloses_later hnamed s ht hi)]
    have hnaming := cutTurns_naming (r := r) hnamed hts e (cutTurn named r s t)
    have hnone : (¬∃ i ∈ ts, namesExtent e (cutCloses named r s i) = true) →
        ts.countP (fun i => namesExtent e (cutCloses named r (cutTurn named r s t) i)) = 0 := by
      rw [← hlater]
      intro h
      refine List.countP_eq_zero.2 fun i hi hc => h ⟨i, hi, hc⟩
    rw [List.foldl_cons, ih hts (by rw [cutTurn_extents]; exact hx), cutTurn_timer named r t hx]
    simp only [hlater, List.mem_cons, exists_eq_or_imp]
    by_cases hl : ∃ i ∈ ts, namesExtent e (cutCloses named r s i) = true
    · by_cases h0 : jobsNaming e (ts.foldl (cutTurn named r) (cutTurn named r s t)) = 0
      · simp only [hl, h0, or_true, and_self, if_true]
      · have h1 : jobsNaming e (cutTurn named r s t) ≠ 0 := by omega
        simp only [h0, h1, and_false, if_false]
    · rw [hnone hl, Nat.add_zero] at hnaming
      simp only [hl, false_and, or_false, if_false, hnaming]

/-! ## Messages, requests and what a cut leaves alone -/

theorem cutTurn_sends (named : Job → Bool) (r : CutReason) {s : State} (t : TagId) (h : drainUnawaited s) :
    (cutTurn named r s t).executing = s.executing ∧ (cutTurn named r s t).context = s.context ∧
      (cutTurn named r s t).outControl =
        s.outControl ++
          ((cutCloses named r s t).map fun j => ControlMsg.closer (closerOf t j)).toList := by
  have hexec : (cutNamed named r t s).executing = s.executing := by rw [cutNamed_changes]
  have hcontext : (cutNamed named r t s).context = s.context := by rw [cutNamed_changes]
  have hout : (cutNamed named r t s).outControl = s.outControl := by rw [cutNamed_changes]
  rw [cutTurn_eq]
  rcases hc : cutCloses named r s t with _ | j
  · exact ⟨hexec, hcontext, by simp [closeCut, hout]⟩
  · obtain ⟨n, q, hs⟩ := cutCloses_state hc
    have hd : drainUnawaited (cutNamed named r t s) := by
      rw [drainUnawaited, hexec]
      exact h
    obtain ⟨h1, h2, h3⟩ := closeJob_of_cut_unawaited t hs hd
    rw [closeCut, h1, h2, h3, hexec, hcontext, hout]
    exact ⟨rfl, rfl, rfl⟩

theorem closer_alike (t : TagId) {a b : Option Job} (h : alike a b) :
    a.map (fun j => ControlMsg.closer (closerOf t j)) = b.map fun j => .closer (closerOf t j) := by
  rcases b with _ | j
  · rw [alike_none.1 h]
  · obtain ⟨n, rfl⟩ := alike_some.1 h
    rfl

/-- The Closers leave in the order of the turns, and no request is touched. -/
theorem cutTurns_sends (hnamed : ignoresReceipt named)
    {ts : List TagId} (hts : ts.Nodup) {s : State} (h : drainUnawaited s) :
    (ts.foldl (cutTurn named r) s).executing = s.executing ∧
      (ts.foldl (cutTurn named r) s).context = s.context ∧
      (ts.foldl (cutTurn named r) s).outControl =
        s.outControl ++
          ts.filterMap fun t =>
            (cutCloses named r s t).map fun j => ControlMsg.closer (closerOf t j) := by
  induction ts generalizing s with
  | nil => simp
  | cons t ts ih =>
    obtain ⟨ht, hts⟩ := List.nodup_cons.1 hts
    obtain ⟨hexec, hcontext, hout⟩ := cutTurn_sends named r t h
    have hd : drainUnawaited (cutTurn named r s t) := by
      rw [drainUnawaited, hexec]
      exact h
    obtain ⟨h1, h2, h3⟩ := ih hts hd
    have hlater : ts.filterMap (fun i =>
          (cutCloses named r (cutTurn named r s t) i).map fun j => ControlMsg.closer (closerOf i j)) =
        ts.filterMap fun i => (cutCloses named r s i).map fun j => ControlMsg.closer (closerOf i j) :=
      List.filterMap_congr fun i hi => closer_alike i (cutCloses_later hnamed s ht hi)
    rw [List.foldl_cons, h1, h2, h3, hexec, hcontext, hout, hlater]
    refine ⟨rfl, rfl, ?_⟩
    rcases hc : cutCloses named r s t with _ | j <;> simp [hc]

theorem cutTurns_flags (named : Job → Bool) (r : CutReason) (ts : List TagId) (s : State) :
    (ts.foldl (cutTurn named r) s).flags = s.flags ∧ (ts.foldl (cutTurn named r) s).attn = s.attn := by
  induction ts generalizing s with
  | nil => exact ⟨rfl, rfl⟩
  | cons t ts ih =>
    obtain ⟨h1, h2⟩ := ih (cutTurn named r s t)
    rw [List.foldl_cons, h1, h2, cutTurn_eq]
    have hflags : (cutNamed named r t s).flags = s.flags := by rw [cutNamed_changes]
    have hattn : (cutNamed named r t s).attn = s.attn := by rw [cutNamed_changes]
    rcases hc : cutCloses named r s t with _ | j
    · exact ⟨hflags, hattn⟩
    · obtain ⟨n, q, hs⟩ := cutCloses_state hc
      rw [closeCut, closeJob_of_cut _ _ hs]
      exact ⟨hflags, hattn⟩

/-- What the Job Unit's operations leave alone, as an equation. -/
theorem eq_of_jobFrame {s t : State} (h : JobFrame s t) (hf : t.flags = s.flags) (ha : t.attn = s.attn) :
    t =
      { s with
        jobs := t.jobs, ready := t.ready, buffers := t.buffers, slots := t.slots, timers := t.timers
        withheld := t.withheld, outControl := t.outControl, executing := t.executing
        context := t.context } := by
  obtain ⟨⟨⟩⟩ := t
  cases h
  simp_all

end

/-! ## The list, the buffers and a withheld Sector In through a cut -/

section
variable {named : Job → Bool} {r : CutReason}

/-- A cut drops the same entries whatever jobs are next to receive. -/
theorem cutEntry_alike (hnamed : ignoresReceipt named) {g : ReadyEntry}
    {s u : State} (h : alike u.jobs[g.tag] s.jobs[g.tag]) : cutEntry named u g = cutEntry named s g := by
  rcases hj : s.jobs[g.tag] with _ | j
  · rw [hj, alike_none] at h
    simp only [cutEntry, h, hj]
  · rw [hj] at h
    obtain ⟨n, hn⟩ := alike_some.1 h
    simp only [cutEntry, hj, hn, newlyCut_received hnamed]

/-- A turn makes the same buffers FREE where the list holds the same entries of its job. -/
theorem turnBuffers_alike (hnamed : ignoresReceipt named) {i : TagId}
    {s u : State} (h : alike u.jobs[i] s.jobs[i])
    (hr : ∀ k, u.ready.filter (ReadyEntry.dropped i k) = s.ready.filter (ReadyEntry.dropped i k)) :
    turnBuffers named u i = turnBuffers named s i := by
  rcases hj : s.jobs[i] with _ | j
  · rw [hj, alike_none] at h
    simp only [turnBuffers, h, hj]
  · rw [hj] at h
    obtain ⟨n, hn⟩ := alike_some.1 h
    simp only [turnBuffers, hj, hn, newlyCut_received hnamed, hr]

/-- The list after a turn: entries of its job are dropped, and a sector that was withheld may join. -/
def listAfter (named : Job → Bool) (t : TagId) (joined : List ReadyEntry) (s : State) : List ReadyEntry :=
  (s.ready.filter fun g => !(decide (g.tag = t) && cutEntry named s g)) ++ joined

theorem listAfter_dropped {t i : TagId} (joined : List ReadyEntry) (s : State) (h : t ≠ i) (k : Nat) :
    (listAfter named t joined s).filter (ReadyEntry.dropped i k) =
      s.ready.filter (ReadyEntry.dropped i k) ++ joined.filter (ReadyEntry.dropped i k) := by
  rw [listAfter, List.filter_append, List.filter_filter]
  congr 1
  refine List.filter_congr fun g _ => ?_
  by_cases hg : g.tag = i
  · have : g.tag ≠ t := fun e => h (e ▸ hg)
    simp [ReadyEntry.dropped, hg, Ne.symm h]
  · simp [ReadyEntry.dropped, hg]

/-- A turn leaves the buffers of later turns, where no entry of theirs joins the list. -/
theorem turnBuffers_later (hnamed : ignoresReceipt named) {t i : TagId}
    {joined : List ReadyEntry} {s : State} (h : t ≠ i)
    (hr : (cutTurn named r s t).ready = listAfter named t joined s)
    (hi : ∀ g ∈ joined, g.tag ≠ i) :
    turnBuffers named (cutTurn named r s t) i = turnBuffers named s i := by
  refine turnBuffers_alike hnamed (cutTurn_alike named r s h) fun k => ?_
  have hnone : joined.filter (ReadyEntry.dropped i k) = [] := by
    refine List.filter_eq_nil_iff.2 fun g hg => ?_
    simp [ReadyEntry.dropped, hi g hg]
  rw [hr, listAfter_dropped joined s h, hnone, List.append_nil]

theorem flatMap_turnBuffers_later (hnamed : ignoresReceipt named)
    {t : TagId} {ts : List TagId} {joined : List ReadyEntry} {s : State} (ht : t ∉ ts)
    (hr : (cutTurn named r s t).ready = listAfter named t joined s)
    (hi : ∀ g ∈ joined, g.tag ∉ ts) :
    ts.flatMap (turnBuffers named (cutTurn named r s t)) = ts.flatMap (turnBuffers named s) := by
  refine List.flatMap_congr fun i hm => turnBuffers_later hnamed ?_ hr fun g hg => ?_
  · rintro rfl
    exact ht hm
  · rintro rfl
    exact hi g hg hm

/-! ### One turn -/

/-- Buffers that become FREE while a Sector In of a job is withheld: it takes the first. -/
theorem releaseBuffers_of_taken (b : BufferId) (bs : List BufferId) {w : Withheld} {v : Job} {s : State}
    (hw : s.withheld = some w) (hv : s.jobs[w.tag] = some v) :
    releaseBuffers (b :: bs) s =
      { s with
        withheld := none
        ready := s.ready ++ [{ tag := w.tag, index := v.nextToReceive, buffer := b }]
        jobs := s.jobs.set w.tag (some { v with nextToReceive := v.nextToReceive + 1 })
        buffers := Vector.ofFn fun c : BufferId =>
          if c ∈ bs then Buffer.empty
          else if c = b then { use := .listed, data := w.data, tag := w.stored } else s.buffers[c] } := by
  have hset (x : Buffer) (c : BufferId) :
      (s.buffers.set b x)[c] = if c = b then x else s.buffers[c] := by
    by_cases hc : c = b
    · subst hc
      simp
    · have : b.val ≠ c.val := fun e => hc (Fin.ext e.symm)
      simp [hc, this]
  rw [releaseBuffers_cons]
  simp only [freed, hw, hv, hset]

variable {t : TagId} {s : State}

/-- A turn while nothing is withheld. -/
theorem cutTurn_pool_of_none (named : Job → Bool) (r : CutReason) (t : TagId) (hw : s.withheld = none) :
    (cutTurn named r s t).withheld = none ∧
      (cutTurn named r s t).ready = listAfter named t [] s ∧
      ∀ b : BufferId, (cutTurn named r s t).buffers[b] =
        if b ∈ turnBuffers named s t then Buffer.empty else s.buffers[b] := by
  obtain ⟨hready, hbuffers, hwithheld⟩ := cutTurn_pool named r s t
  have hnone : (sectorsDropped named r t s).withheld = none := by
    obtain h | h := sectorsDropped_withheld named r t s
    · exact h
    · exact h.trans hw
  rw [hready, hbuffers, hwithheld, cutNamed_eq, releaseBuffers_of_none _ hnone]
  refine ⟨hnone, (List.append_nil _).symm, fun b => ?_⟩
  simp [sectorsDropped]

/-- A turn that makes no buffer FREE and discards nothing that is withheld. -/
theorem cutTurn_pool_of_nil (h : turnBuffers named s t = [])
    (hw : (sectorsDropped named r t s).withheld = s.withheld) :
    (cutTurn named r s t).withheld = s.withheld ∧
      (cutTurn named r s t).ready = listAfter named t [] s ∧
      (cutTurn named r s t).buffers = s.buffers ∧
      ∀ i, t ≠ i → (cutTurn named r s t).jobs[i] = s.jobs[i] := by
  obtain ⟨hready, hbuffers, hwithheld⟩ := cutTurn_pool named r s t
  have hcut : cutNamed named r t s = sectorsDropped named r t s := by
    rw [cutNamed_eq, h]
    rfl
  refine ⟨?_, ?_, ?_, fun i hi => ?_⟩
  · rw [hwithheld, hcut, hw]
  · rw [hready, hcut]
    exact (List.append_nil _).symm
  · rw [hbuffers, hcut]
    rfl
  · rw [cutTurn_job_ne named r s hi, hcut, sectorsDropped, getElem_jobs_set_ne _ _ hi]

/-- A turn whose first buffer is taken by the withheld Sector In of another job. -/
theorem cutTurn_pool_of_cons {b : BufferId} {bs : List BufferId} {w : Withheld} {v : Job}
    (h : turnBuffers named s t = b :: bs) (hw : s.withheld = some w) (hne : t ≠ w.tag)
    (hv : s.jobs[w.tag] = some v) :
    (cutTurn named r s t).withheld = none ∧
      (cutTurn named r s t).ready =
        listAfter named t [{ tag := w.tag, index := v.nextToReceive, buffer := b }] s ∧
      (∀ c : BufferId, (cutTurn named r s t).buffers[c] =
        if c ∈ bs then Buffer.empty
        else if c = b then { use := .listed, data := w.data, tag := w.stored } else s.buffers[c]) ∧
      (cutTurn named r s t).jobs[w.tag] = some { v with nextToReceive := v.nextToReceive + 1 } := by
  obtain ⟨hready, hbuffers, hwithheld⟩ := cutTurn_pool named r s t
  have hsame : (sectorsDropped named r t s).withheld = some w := by
    simp [sectorsDropped, hw, discardWithheld, Ne.symm hne]
  have hjob : (sectorsDropped named r t s).jobs[w.tag] = some v := by
    rw [sectorsDropped, getElem_jobs_set_ne _ _ hne, hv]
  have hcut : cutNamed named r t s =
      releaseBuffers (b :: bs) (sectorsDropped named r t s) := by rw [cutNamed_eq, h]
  rw [releaseBuffers_of_taken b bs hsame hjob] at hcut
  refine ⟨?_, ?_, fun c => ?_, ?_⟩
  · rw [hwithheld, hcut]
  · rw [hready, hcut]
    rfl
  · rw [hbuffers, hcut]
    simp [sectorsDropped]
  · rw [cutTurn_job_ne named r s hne, hcut, getElem_jobs_set_self]

/-! ### All turns -/

/-- The list and the buffers when the turns of some tags have ended and nothing is withheld any longer. -/
structure PoolCut (named : Job → Bool) (ts : List TagId) (s u : State) : Prop where
  withheld : u.withheld = none
  ready : u.ready = s.ready.filter fun g => !(decide (g.tag ∈ ts) && cutEntry named s g)
  buffers : ∀ b : BufferId,
    u.buffers[b] = if b ∈ ts.flatMap (turnBuffers named s) then Buffer.empty else s.buffers[b]

/-- Dropping the entries of one tag and then those of the others. -/
theorem filter_listAfter (hnamed : ignoresReceipt named) {ts : List TagId}
    (joined : List ReadyEntry) (ht : t ∉ ts) :
    (listAfter named t joined s).filter
        (fun g => !(decide (g.tag ∈ ts) && cutEntry named (cutTurn named r s t) g)) =
      (s.ready.filter fun g => !(decide (g.tag ∈ t :: ts) && cutEntry named s g)) ++
        joined.filter fun g => !(decide (g.tag ∈ ts) && cutEntry named (cutTurn named r s t) g) := by
  rw [listAfter, List.filter_append, List.filter_filter]
  congr 1
  refine List.filter_congr fun g _ => ?_
  by_cases hg : t = g.tag
  · have : g.tag ∉ ts := hg ▸ ht
    simp [← hg, ht]
  · rw [cutEntry_alike hnamed (cutTurn_alike named r s hg)]
    simp [Ne.symm hg]

theorem cutTurns_pool_of_none (hnamed : ignoresReceipt named)
    {ts : List TagId} (hts : ts.Nodup) (hw : s.withheld = none) :
    PoolCut named ts s (ts.foldl (cutTurn named r) s) := by
  induction ts generalizing s with
  | nil => exact ⟨hw, by simp, by simp⟩
  | cons t ts ih =>
    obtain ⟨ht, hts⟩ := List.nodup_cons.1 hts
    obtain ⟨hwithheld, hready, hbuffers⟩ := cutTurn_pool_of_none named r t hw
    obtain ⟨h1, h2, h3⟩ := ih hts hwithheld
    refine ⟨h1, ?_, fun b => ?_⟩
    · rw [List.foldl_cons, h2, hready, filter_listAfter hnamed [] ht, List.filter_nil, List.append_nil]
    · rw [List.foldl_cons, h3, flatMap_turnBuffers_later hnamed ht hready (by simp), hbuffers]
      simp only [List.flatMap_cons, List.mem_append]
      by_cases hb : b ∈ turnBuffers named s t <;> simp [hb]

/-- The turn of a job of which a Sector In is withheld, and which is newly cut, first discards it. -/
theorem cutTurn_discards {w : Withheld} {j : Job} (hw : s.withheld = some w) (hj : s.jobs[w.tag] = some j)
    (hn : newlyCut named j = true) :
    cutTurn named r s w.tag = cutTurn named r { s with withheld := none } w.tag := by
  have hdropped : sectorsDropped named r w.tag s =
      sectorsDropped named r w.tag { s with withheld := none } := by
    have hd : discardWithheld w.tag s.withheld = none := by simp [hw, discardWithheld]
    simp only [sectorsDropped, hj, hn, hd, Option.any_some, if_true]
    rfl
  have hcut : cutNamed named r w.tag s = cutNamed named r w.tag { s with withheld := none } := by
    rw [cutNamed_eq, cutNamed_eq, hdropped]
    rfl
  rw [cutTurn_eq, cutTurn_eq, hcut]
  rfl

/-- The entry that a withheld Sector In makes is dropped in its own job's turn. -/
theorem mem_turnBuffers_of_listed (hnamed : ignoresReceipt named)
    {i : TagId} {j : Job} {n : Nat} {b : BufferId} (h : t ≠ i)
    (hr : (cutTurn named r s t).ready = listAfter named t [{ tag := i, index := n, buffer := b }] s)
    (hj : s.jobs[i] = some j) (hn : newlyCut named j = true) (hle : j.nextToEmit ≤ n) (c : BufferId) :
    c ∈ turnBuffers named (cutTurn named r s t) i ↔ c = b ∨ c ∈ turnBuffers named s i := by
  have hlike := cutTurn_alike named r s h
  rw [hj] at hlike
  obtain ⟨m, hm⟩ := alike_some.1 hlike
  have hdrop : [({ tag := i, index := n, buffer := b } : ReadyEntry)].filter
      (ReadyEntry.dropped i j.nextToEmit) = [{ tag := i, index := n, buffer := b }] := by
    simp [ReadyEntry.dropped, hle]
  simp only [turnBuffers, hm, hj, newlyCut_received hnamed, hn, if_true, hr,
    listAfter_dropped _ s h, hdrop, List.map_append, List.map_cons, List.map_nil, List.mem_append,
    List.mem_singleton]
  tauto

/-- A Sector In withheld of a job that is newly cut: discarded, or dropped after taking a buffer. -/
theorem cutTurns_pool_of_cutWithheld (hnamed : ignoresReceipt named)
    {ts : List TagId} (hts : ts.Nodup) {w : Withheld} {j : Job} (hw : s.withheld = some w)
    (hm : w.tag ∈ ts) (hj : s.jobs[w.tag] = some j) (hn : newlyCut named j = true)
    (hle : j.nextToEmit ≤ j.nextToReceive) :
    PoolCut named ts s (ts.foldl (cutTurn named r) s) := by
  induction ts generalizing s with
  | nil => simp at hm
  | cons t ts ih =>
    obtain ⟨ht, hts'⟩ := List.nodup_cons.1 hts
    by_cases hne : t = w.tag
    · subst hne
      rw [List.foldl_cons, cutTurn_discards hw hj hn]
      have h := cutTurns_pool_of_none (r := r) (s := { s with withheld := none }) hnamed hts rfl
      exact ⟨h.withheld, h.ready, h.buffers⟩
    · have hm' : w.tag ∈ ts := by simpa [Ne.symm hne] using hm
      have hsame : (sectorsDropped named r t s).withheld = s.withheld := by
        simp [sectorsDropped, hw, discardWithheld, Ne.symm hne]
      rcases hb : turnBuffers named s t with _ | ⟨b, bs⟩
      · obtain ⟨hwithheld, hready, hbuffers, hjobs⟩ := cutTurn_pool_of_nil (r := r) hb hsame
        obtain ⟨h1, h2, h3⟩ := ih hts' (hwithheld.trans hw) hm' ((hjobs w.tag hne).trans hj)
        refine ⟨h1, ?_, fun c => ?_⟩
        · rw [List.foldl_cons, h2, hready, filter_listAfter hnamed [] ht, List.filter_nil,
            List.append_nil]
        · rw [List.foldl_cons, h3, flatMap_turnBuffers_later hnamed ht hready (by simp), hbuffers,
            List.flatMap_cons, hb, List.nil_append]
      · obtain ⟨hwithheld, hready, hbuffers, hjob⟩ := cutTurn_pool_of_cons (r := r) hb hw hne hj
        obtain ⟨h1, h2, h3⟩ := cutTurns_pool_of_none (r := r) hnamed hts' hwithheld
        have hentry : cutEntry named (cutTurn named r s t)
            { tag := w.tag, index := j.nextToReceive, buffer := b } = true := by
          simp [cutEntry, hjob, newlyCut_received hnamed, hn, hle]
        have hlater (c : BufferId) : c ∈ ts.flatMap (turnBuffers named (cutTurn named r s t)) ↔
            c = b ∨ c ∈ ts.flatMap (turnBuffers named s) := by
          simp only [List.mem_flatMap]
          have hown := mem_turnBuffers_of_listed hnamed hne hready hj hn hle c
          have hother (i : TagId) (hi : i ∈ ts) (hw : i ≠ w.tag) :
              turnBuffers named (cutTurn named r s t) i = turnBuffers named s i := by
            refine turnBuffers_later hnamed (fun e => ht (e ▸ hi)) hready fun g hg => ?_
            rw [List.mem_singleton.1 hg]
            exact Ne.symm hw
          grind
        refine ⟨h1, ?_, fun c => ?_⟩
        · rw [List.foldl_cons, h2, hready, filter_listAfter hnamed _ ht]
          simp [hm', hentry]
        · rw [List.foldl_cons, h3, hbuffers, List.flatMap_cons, hb]
          simp only [hlater, List.cons_append, List.mem_cons, List.mem_append]
          grind

theorem newlyCut_of_unnamed {j : Job} (hn : named j = false) : newlyCut named j = false := by
  simp [newlyCut, hn]

/-- A Sector In withheld of a job that is not named is not discarded. -/
theorem sectorsDropped_keepsWithheld (t : TagId) {w : Withheld} {j : Job} (hw : s.withheld = some w)
    (hj : s.jobs[w.tag] = some j) (hn : named j = false) :
    (sectorsDropped named r t s).withheld = s.withheld := by
  by_cases h : w.tag = t
  · subst h
    rw [sectorsDropped_of_kept]
    rintro i hi
    rw [hj] at hi
    cases hi
    exact newlyCut_of_unnamed hn
  · simp [sectorsDropped, hw, discardWithheld, h]

theorem turnBuffers_of_unnamed {i : TagId} {j : Job} (hj : s.jobs[i] = some j) (hn : named j = false) :
    turnBuffers named s i = [] := by
  refine turnBuffers_of_kept fun v hv => ?_
  rw [hj] at hv
  cases hv
  exact newlyCut_of_unnamed hn

theorem recordAfter_of_unnamed {j : Job} (hn : named j = false) :
    recordAfter named r (some j) = some j := by
  simp [recordAfter, hn]

/-- A turn that makes no buffer FREE, while a Sector In of a job that is not named is withheld. -/
theorem cutTurn_pool_of_stillWithheld {w : Withheld} {j : Job} (hw : s.withheld = some w)
    (hj : s.jobs[w.tag] = some j) (hn : named j = false) (hb : turnBuffers named s t = []) :
    (cutTurn named r s t).withheld = some w ∧
      (cutTurn named r s t).ready = listAfter named t [] s ∧
      (cutTurn named r s t).buffers = s.buffers ∧ (cutTurn named r s t).jobs[w.tag] = some j := by
  obtain ⟨hwithheld, hready, hbuffers, hjobs⟩ :=
    cutTurn_pool_of_nil hb (sectorsDropped_keepsWithheld (r := r) t hw hj hn)
  refine ⟨hwithheld.trans hw, hready, hbuffers, ?_⟩
  by_cases h : t = w.tag
  · subst h
    rw [cutTurn_job_self, hj, recordAfter_of_unnamed hn]
  · exact (hjobs w.tag h).trans hj

/-- A Sector In withheld of a job that is not named stays withheld while no buffer becomes FREE. -/
theorem cutTurns_pool_of_stillWithheld (hnamed : ignoresReceipt named)
    {ts : List TagId} (hts : ts.Nodup) {w : Withheld} {j : Job} (hw : s.withheld = some w)
    (hj : s.jobs[w.tag] = some j) (hn : named j = false) (hb : ts.flatMap (turnBuffers named s) = []) :
    (ts.foldl (cutTurn named r) s).withheld = some w ∧
      (ts.foldl (cutTurn named r) s).ready =
        (s.ready.filter fun g => !(decide (g.tag ∈ ts) && cutEntry named s g)) ∧
      (ts.foldl (cutTurn named r) s).buffers = s.buffers ∧
      (ts.foldl (cutTurn named r) s).jobs[w.tag] = some j := by
  induction ts generalizing s with
  | nil => exact ⟨hw, by simp, rfl, hj⟩
  | cons t ts ih =>
    obtain ⟨ht, hts⟩ := List.nodup_cons.1 hts
    rw [List.flatMap_cons, List.append_eq_nil_iff] at hb
    obtain ⟨hb, hbs⟩ := hb
    obtain ⟨hwithheld, hready, hbuffers, hjob⟩ := cutTurn_pool_of_stillWithheld (r := r) hw hj hn hb
    rw [← flatMap_turnBuffers_later hnamed ht hready (by simp)] at hbs
    obtain ⟨h1, h2, h3, h4⟩ := ih hts hwithheld hjob hbs
    refine ⟨h1, ?_, h3.trans hbuffers, h4⟩
    rw [List.foldl_cons, h2, hready, filter_listAfter hnamed [] ht, List.filter_nil, List.append_nil]

/-- It takes the first buffer that becomes FREE. -/
theorem cutTurns_pool_of_taken (hnamed : ignoresReceipt named)
    {ts : List TagId} (hts : ts.Nodup) {w : Withheld} {j : Job} {b : BufferId} {rest : List BufferId}
    (hw : s.withheld = some w) (hj : s.jobs[w.tag] = some j) (hn : named j = false)
    (hb : ts.flatMap (turnBuffers named s) = b :: rest) (hnd : b ∉ rest) :
    (ts.foldl (cutTurn named r) s).withheld = none ∧
      (ts.foldl (cutTurn named r) s).ready =
        (s.ready.filter fun g => !(decide (g.tag ∈ ts) && cutEntry named s g)) ++
          [{ tag := w.tag, index := j.nextToReceive, buffer := b }] ∧
      (∀ c : BufferId, (ts.foldl (cutTurn named r) s).buffers[c] =
        if c = b then { use := .listed, data := w.data, tag := w.stored }
        else if c ∈ rest then Buffer.empty else s.buffers[c]) ∧
      (ts.foldl (cutTurn named r) s).jobs[w.tag] =
        some { j with nextToReceive := j.nextToReceive + 1 } := by
  induction ts generalizing s with
  | nil => simp at hb
  | cons t ts ih =>
    obtain ⟨ht, hts⟩ := List.nodup_cons.1 hts
    rcases ht' : turnBuffers named s t with _ | ⟨b', bs⟩
    · obtain ⟨hwithheld, hready, hbuffers, hjob⟩ := cutTurn_pool_of_stillWithheld (r := r) hw hj hn ht'
      rw [List.flatMap_cons, ht', List.nil_append,
        ← flatMap_turnBuffers_later hnamed ht hready (by simp)] at hb
      obtain ⟨h1, h2, h3, h4⟩ := ih hts hwithheld hjob hb
      refine ⟨h1, ?_, fun c => ?_, h4⟩
      · rw [List.foldl_cons, h2, hready, filter_listAfter hnamed [] ht, List.filter_nil,
          List.append_nil]
      · rw [List.foldl_cons, h3, hbuffers]
    · have hne : t ≠ w.tag := by
        rintro rfl
        rw [turnBuffers_of_unnamed hj hn] at ht'
        contradiction
      rw [List.flatMap_cons, ht', List.cons_append, List.cons.injEq] at hb
      obtain ⟨rfl, rfl⟩ := hb
      obtain ⟨hwithheld, hready, hbuffers, hjob⟩ := cutTurn_pool_of_cons (r := r) ht' hw hne hj
      obtain ⟨h1, h2, h3⟩ := cutTurns_pool_of_none (r := r) hnamed hts hwithheld
      have hn' : named { j with nextToReceive := j.nextToReceive + 1 } = false :=
        (hnamed j _).trans hn
      have hentry : cutEntry named (cutTurn named r s t)
          { tag := w.tag, index := j.nextToReceive, buffer := b' } = false := by
        simp [cutEntry, hjob, newlyCut_of_unnamed hn']
      have hlater : ts.flatMap (turnBuffers named (cutTurn named r s t)) =
          ts.flatMap (turnBuffers named s) := by
        refine List.flatMap_congr fun i hi => ?_
        by_cases hi' : i = w.tag
        · subst hi'
          rw [turnBuffers_of_unnamed hjob hn', turnBuffers_of_unnamed hj hn]
        · refine turnBuffers_later hnamed (fun e => ht (e ▸ hi)) hready fun g hg => ?_
          rw [List.mem_singleton.1 hg]
          exact Ne.symm hi'
      refine ⟨h1, ?_, fun c => ?_, ?_⟩
      · rw [List.foldl_cons, h2, hready, filter_listAfter hnamed _ ht]
        simp [hentry]
      · rw [List.foldl_cons, h3, hlater, hbuffers]
        simp only [List.mem_append] at hnd ⊢
        grind
      · rw [List.foldl_cons, cutTurns_job_of_unwithheld hts (unwithheld_of_none _ hwithheld), hjob,
          recordAfter_of_unnamed hn', ite_self]

end

/-! ## Cuts -/

theorem namesExtent_iff {e : ExtentId} {o : Option Job} :
    namesExtent e o = true ↔ ∃ j, o = some j ∧ j.extent = e := by
  rcases o with _ | j <;> simp [namesExtent]

/-- Every tag has its turn. -/
theorem poolCut_all {named : Job → Bool} {s u : State} (h : PoolCut named (List.finRange 48) s u) :
    u.withheld = none ∧ u.ready = (s.ready.filter fun g => !cutEntry named s g) ∧
      ∀ b : BufferId, u.buffers[b] = if b ∈ cutBuffers named s then Buffer.empty else s.buffers[b] := by
  obtain ⟨h1, h2, h3⟩ := h
  refine ⟨h1, by simpa using h2, fun b => ?_⟩
  rw [cutBuffers_eq_flatMap, h3]

/-- Settles O20, by folding the 48 turns of a cut: a turn sees of the turns before it only what the buffers that
became FREE let a withheld Sector In do. -/
theorem cutEndsNamedJobs : Obligations.CutEndsNamedJobs := by
  unfold Obligations.CutEndsNamedJobs
  intro named r s hnamed
  rw [cutJobs_eq_foldl]
  have hts := List.nodup_finRange 48
  have hmem : ∀ t : TagId, t ∈ List.finRange 48 := List.mem_finRange
  have hkept : (s.ready.filter fun g => !(decide (g.tag ∈ List.finRange 48) && cutEntry named s g)) =
      s.ready.filter fun g => !cutEntry named s g := by simp
  refine ⟨fun t j hj hw => ?_, fun t hj => ?_, fun k => ?_, fun e x hx => ⟨?_, ?_⟩, fun hd => ?_, ?_,
    fun hd => ?_, fun hwithheld => ?_, fun w j hw hj hn => ⟨fun hb => ?_, fun b rest hb hnd => ?_⟩⟩
  · rw [cutTurns_job_of_unwithheld hts hw, if_pos (hmem t), hj]
    rfl
  · have h := cutTurns_alike (r := r) hnamed hts t s
    rw [if_pos (hmem t), hj] at h
    exact alike_none.1 h
  · rw [cutTurns_slot hnamed hts, ← cutPins_eq_countP]
    simp only
    split
    · next key hv => exact unpinnedSlot_iterate_of_draining _ hv
    · next hv => exact unpinnedSlot_iterate_of_notDraining _ hv
  · rintro ⟨t, j, hc, he⟩ h0
    rw [cutTurns_timer hnamed hts hx, if_pos ⟨⟨t, hmem t, namesExtent_iff.2 ⟨j, hc, he⟩⟩, h0⟩]
  · rintro h
    rw [cutTurns_timer hnamed hts hx, if_neg]
    rintro ⟨⟨t, -, ht⟩, h0⟩
    obtain ⟨j, hc, he⟩ := namesExtent_iff.1 ht
    obtain h | h := h
    · exact h t j hc he
    · exact h h0
  · obtain ⟨-, -, hout⟩ := cutTurns_sends (r := r) hnamed hts hd
    exact hout
  · obtain ⟨hflags, hattn⟩ := cutTurns_flags named r (List.finRange 48) s
    exact eq_of_jobFrame (JobFrame.of_cutJobs named r s) hflags hattn
  · obtain ⟨hexec, hcontext, -⟩ := cutTurns_sends (r := r) hnamed hts hd
    exact ⟨hexec, hcontext⟩
  · have hpool : PoolCut named (List.finRange 48) s ((List.finRange 48).foldl (cutTurn named r) s) := by
      obtain hw | ⟨w, j, hw, hj, hn, hle⟩ := hwithheld
      · exact cutTurns_pool_of_none hnamed hts hw
      · exact cutTurns_pool_of_cutWithheld hnamed hts hw (hmem w.tag) hj hn hle
    obtain ⟨h1, h2, h3⟩ := poolCut_all hpool
    refine ⟨h1, h2, h3, fun w j hw hj => ?_⟩
    have hn : named j = true := by
      obtain hw' | ⟨w', j', hw', hj', hn, -⟩ := hwithheld
      · exact absurd (hw.symm.trans hw') (Option.some_ne_none w)
      · rw [hw, Option.some.injEq] at hw'
        subst hw'
        rw [hj, Option.some.injEq] at hj'
        exact hj' ▸ named_of_newlyCut hn
    have hrecord := cutTurns_alike (r := r) hnamed hts w.tag s
    rw [if_pos (hmem w.tag), hj] at hrecord
    simp only [recordAfter, Option.bind_some, hn, if_true] at hrecord
    split_ifs at hrecord ⊢
    · exact alike_none.1 hrecord
    · exact alike_some.1 hrecord
  · obtain ⟨h1, h2, h3, h4⟩ := cutTurns_pool_of_stillWithheld (r := r) hnamed hts hw hj hn hb
    exact ⟨h1, h2.trans hkept, h3, h4⟩
  · obtain ⟨hb', -⟩ := List.nodup_cons.1 hnd
    obtain ⟨h1, h2, h3, h4⟩ := cutTurns_pool_of_taken (r := r) hnamed hts hw hj hn hb hb'
    refine ⟨h1, ?_, ?_, fun c hc => ?_, h4⟩
    · rw [h2, hkept]
    · rw [h3, if_pos rfl]
    · rw [h3, if_neg hc, hb]
      simp only [List.mem_cons, hc, false_or]
      rfl

end Sys2Proof.Machine
end

section
/-! PROOFS. Openers that are read or refused: checks 1 to 12 and the lookup of an LBA's extent (O6 and O7). -/

namespace Sys2Proof.Machine

/-! ## Check 1: the fields of an opener (R24) -/

theorem index?_eq_some {n v : Nat} {t : Fin n} : index? n v = some t ↔ v = t.val := by
  refine ⟨fun h => ?_, index?_of_eq⟩
  unfold index? at h
  split at h
  · cases h
    rfl
  · contradiction

/-- The direction codes of 12.1. -/
theorem directionOf_eq_some {b : Byte} {d : Direction} :
    directionOf b = some d ↔ (b = 0x01 ∧ d = .encipher) ∨ (b = 0x02 ∧ d = .decipher) := by
  unfold directionOf
  split_ifs with h1 h2
  · simp [h1, eq_comm]
  · simp [h2, eq_comm]
  · simp only [h1, h2, false_and, or_self]

/-- A direction code is 0x01 or 0x02, and 0x01 is ENCIPHER. -/
theorem direction_of_code {b : Byte} {d : Direction} (h : directionOf b = some d) :
    (b = 0x01 ∨ b = 0x02) ∧ (d = .encipher ↔ b = 0x01) := by
  obtain ⟨rfl, rfl⟩ | ⟨rfl, rfl⟩ := directionOf_eq_some.1 h
  · decide
  · decide

/-- An opener that check 1 passes, and the fields read from it. -/
theorem openerFields?_eq_some {m : OpenerMsg} {o : Opener} :
    openerFields? m = some o ↔
      m.length = 12 ∧ m.reserved = 0 ∧ m.tag.toNat = o.tag.val ∧
        directionOf m.direction = some o.direction ∧ m.ns.toNat = o.ns.val ∧
        m.firstLba.toNat = o.firstLba ∧ m.count.toNat = o.count ∧ 1 ≤ o.count ∧ o.count ≤ 256 := by
  constructor
  · intro h
    unfold openerFields? at h
    split at h
    · contradiction
    · next hhead =>
      split at h
      · next t d n ht hd hn =>
        split_ifs at h with hcount
        cases h
        obtain ⟨hlength, hreserved⟩ := not_or.1 hhead
        exact ⟨not_not.1 hlength, not_not.1 hreserved, index?_eq_some.1 ht, hd, index?_eq_some.1 hn, rfl, rfl,
          hcount⟩
      · contradiction
  · rintro ⟨hlength, hreserved, htag, hd, hns, hlba, hcount, hlow, hhigh⟩
    simp only [openerFields?, hlength, hreserved, index?_of_eq htag, hd, index?_of_eq hns, hlba, hcount, hlow,
      hhigh, ne_eq, not_true, or_self, and_self, if_true, if_false]

/-! ## Openers that are refused (R34) -/

theorem takeOpener_of_refused {m : OpenerMsg} {c : Condition} {e : Option ExtentId} {s : State}
    (h : admission m s = .refuse c e) : takeOpener m s = emitCloser (refusalCloser m.tag c e) s := by
  simp only [takeOpener, h]

/-- A refusal's Closer carries a condition, which its extent may report. -/
theorem emitCloser_refusal (tag : Byte) (c : Condition) (e : Option ExtentId) (s : State) :
    emitCloser (refusalCloser tag c e) s =
      if reports e s then setFlag .jobFault (sent (refusedCloser tag c e) s)
      else sent (refusedCloser tag c e) s := rfl

/-- A refusal that names no extent is its Closer alone. -/
theorem exec_jobOpener_of_unnamed {m : OpenerMsg} {c : Condition} {s : State} (hp : s.powered = true)
    (h : admission m s = .refuse c none) :
    exec (.jobOpener m) s = .next (sent (refusedCloser m.tag c none) s) := by
  rw [exec_jobOpener m hp, takeOpener_of_refused h, emitCloser_refusal]
  rfl

/-- A refusal that names an extent sets JOB_FAULT where the extent reports conditions. -/
theorem exec_jobOpener_of_named {m : OpenerMsg} {c : Condition} {e : ExtentId} {s : State}
    (hp : s.powered = true) (h : admission m s = .refuse c (some e)) :
    exec (.jobOpener m) s =
      .next
        (if reports (some e) s then setFlag .jobFault (sent (refusedCloser m.tag c (some e)) s)
        else sent (refusedCloser m.tag c (some e)) s) := by
  rw [exec_jobOpener m hp, takeOpener_of_refused h, emitCloser_refusal]

theorem reports_of_defined {e : ExtentId} {x : Extent} {s : State} (hx : s.extents[e] = some x) :
    reports (some e) s = x.policy.reportConditions := by
  simp only [reports, hx]

/-- Settles O6: what check 1 passes is an equivalence, so a field out of range leaves nothing to read. -/
theorem openerFieldsOrFormat : Obligations.OpenerFieldsOrFormat := by
  unfold Obligations.OpenerFieldsOrFormat
  refine fun m s hp => ⟨fun hbad => ?_, fun hlength hreserved htag hdir hns hlow hhigh => ?_⟩
  · have hnone : openerFields? m = none := by
      rw [Option.eq_none_iff_forall_ne_some]
      intro o ho
      obtain ⟨hlength, hreserved, htag, hd, hns, -, hcount, hlow, hhigh⟩ := openerFields?_eq_some.1 ho
      obtain ⟨hdir, -⟩ := direction_of_code hd
      have := o.tag.isLt
      have := o.ns.isLt
      obtain h | h | h | ⟨h1, h2⟩ | h | h | h := hbad
      · exact h hlength
      · exact h hreserved
      · omega
      · exact hdir.elim h1 h2
      · omega
      · omega
      · omega
    exact ⟨hnone, exec_jobOpener_of_unnamed hp (by simp only [admission, hnone])⟩
  · obtain ⟨d, hd⟩ : ∃ d, directionOf m.direction = some d := by
      obtain h | h := hdir
      · exact ⟨.encipher, directionOf_eq_some.2 (.inl ⟨h, rfl⟩)⟩
      · exact ⟨.decipher, directionOf_eq_some.2 (.inr ⟨h, rfl⟩)⟩
    obtain ⟨-, hencipher⟩ := direction_of_code hd
    exact ⟨⟨⟨m.tag.toNat, by omega⟩, d, ⟨m.ns.toNat, by omega⟩, m.firstLba.toNat, m.count.toNat⟩,
      openerFields?_eq_some.2 ⟨hlength, hreserved, rfl, hd, rfl, rfl, rfl, hlow, hhigh⟩, rfl, hencipher, rfl, rfl,
      rfl⟩

/-! ## The extent of an LBA (R49, R50) -/

theorem spanIn_eq_some {n : NamespaceId} {o : Option Extent} {p : Span} :
    spanIn n o = some p ↔ ∃ x, o = some x ∧ x.ns = n ∧ x.span = some p := by
  rcases o with _ | x
  · simp [spanIn]
  · simp [spanIn]

theorem Span.has_iff (p : Span) (lba : Nat) : p.has lba = true ↔ p.first ≤ lba ∧ lba ≤ p.last := by
  simp [Span.has]

section

variable {n : NamespaceId} {lba last : Nat} {e : ExtentId} {s : State}

/-- The extent that the lookup finds contains the LBA. -/
theorem definedAt_eq_some (h : definedAt n lba s = some e) :
    ∃ p, spanIn n s.extents[e] = some p ∧ p.has lba = true := by
  have he := List.find?_some h
  split at he
  · next p hp => exact ⟨p, hp, he⟩
  · contradiction

/-- The lookup finds no extent where none contains the LBA. -/
theorem definedAt_eq_none :
    definedAt n lba s = none ↔
      ∀ (e : ExtentId) (p : Span), spanIn n s.extents[e] = some p → ¬p.has lba = true := by
  simp only [definedAt, List.find?_eq_none, List.mem_finRange, forall_const]
  refine forall_congr' fun e => ?_
  cases spanIn n s.extents[e] <;> simp

/-- A span that begins in a defined extent lies within it up to its last LBA. -/
theorem spanWithin_of_defined {p : Span} (h : definedAt n lba s = some e)
    (hp : spanIn n s.extents[e] = some p) : spanWithin n lba last s = true ↔ last ≤ p.last := by
  simp only [spanWithin, h, hp, decide_eq_true_eq]

/-- A span that begins in the global extent lies within it where no defined extent begins in the span. -/
theorem spanWithin_of_global (h : definedAt n lba s = none) :
    spanWithin n lba last s = true ↔
      ∀ (e : ExtentId) (p : Span), spanIn n s.extents[e] = some p →
        ¬(lba ≤ p.first ∧ p.first ≤ last) := by
  simp only [spanWithin, h, List.all_eq_true, List.mem_finRange, forall_const]
  refine forall_congr' fun e => ?_
  rcases spanIn n s.extents[e] with _ | p
  · simp
  · simp only [Bool.not_eq_true', Bool.and_eq_false_iff, decide_eq_false_iff_not, Option.some.injEq, forall_eq']
    exact not_and_or.symm

end

/-! ## Checks 2 to 7 (R25 to R28) -/

section

variable {m : OpenerMsg} {o : Opener} {s : State} (hm : openerFields? m = some o)

include hm

theorem admission_of_tagInUse (h : s.jobs[o.tag].isSome = true) : admission m s = .refuse .tagInUse none := by
  simp only [admission, hm, h, if_true]

/-- A free tag leaves the table with room (R25), and the power state decides next. -/
theorem admission_of_notRunning {c : Condition} (hfree : s.jobs[o.tag] = none) (h : s.power.refusal = some c) :
    admission m s = .refuse c none := by
  simp only [admission, hm, hfree, jobCount_of_free hfree, h, Option.isSome_none, Bool.false_eq_true, if_false]

/-- In RUN an opener under a free tag is judged by its span. -/
theorem admission_of_run (hfree : s.jobs[o.tag] = none) (h : s.power = .run) : admission m s = judgeSpan o s := by
  simp only [admission, hm, hfree, jobCount_of_free hfree, h, PowerState.refusal, Option.isSome_none,
    Bool.false_eq_true, if_false]

end

section

variable {o : Opener} {s : State}

theorem judgeSpan_of_absent (h : s.namespaces[o.ns].size = 0) : judgeSpan o s = .refuse .noNamespace none := by
  simp only [judgeSpan, h, if_true]

theorem judgeSpan_of_beyondEnd (h0 : s.namespaces[o.ns].size ≠ 0)
    (h : s.namespaces[o.ns].size ≤ o.firstLba + o.count - 1) : judgeSpan o s = .refuse .beyondEnd none := by
  simp only [judgeSpan, h0, h, if_true, if_false]

theorem judgeSpan_of_straddle (hend : o.firstLba + o.count - 1 < s.namespaces[o.ns].size)
    (h : spanWithin o.ns o.firstLba (o.firstLba + o.count - 1) s = false) :
    judgeSpan o s = .refuse .straddle (some (extentAt o.ns o.firstLba s)) := by
  have h0 : s.namespaces[o.ns].size ≠ 0 := by omega
  simp only [judgeSpan, h0, Nat.not_le.2 hend, h, Bool.false_eq_true, if_false]

end

/-! ## Checks 8 to 12 (R29 to R33) -/

theorem judgeExtent_of_barred {x : Extent} (o : Opener) (e : ExtentId) (s : State) (h : x.barred = true) :
    judgeExtent o e x s = .refuse .barred (some e) := by
  simp only [judgeExtent, h, if_true]

/-- A condition is not masked for ENCIPHER, nor where its mask entry is STOP (R33). -/
theorem masked_of_stop {o : Opener} {x : Extent} {c : FillCondition} (e : ExtentId)
    (h : o.direction = .encipher ∨ x.policy.mask c = .stop) :
    masked o e x c = .refuse c.condition (some e) := by
  obtain h | h := h
  · simp only [masked, h]
  · cases hd : o.direction <;> simp only [masked, hd, h]

theorem judgeExtent_of_worn {o : Opener} {x : Extent} {k : SlotId} (e : ExtentId) {s : State}
    (hb : x.barred = false) (h : maskable o.direction x = none) (hk : x.key = .live k)
    (hw : s.slots[k].worn = true) (hs : s.slots[k].stopAtLimit = true) :
    judgeExtent o e x s = .refuse .keyWorn (some e) := by
  have hl : x.lockOf o.direction = false :=
    Bool.eq_false_iff.2 fun hl => by simp [maskable_of_locked hl] at h
  simp only [judgeExtent, hb, hl, hk, hw, hs, Bool.and_self, Bool.false_eq_true, if_true, if_false]

/-- An opener that reaches its extent is refused by what the extent's record decides. -/
theorem exec_jobOpener_of_reached {m : OpenerMsg} {o : Opener} {e : ExtentId} {x : Extent} {c : Condition}
    {s : State} (h : reachesExtent m o e x s) (hc : judgeExtent o e x s = .refuse c (some e)) :
    exec (.jobOpener m) s =
      .next
        (if x.policy.reportConditions then setFlag .jobFault (sent (refusedCloser m.tag c (some e)) s)
        else sent (refusedCloser m.tag c (some e)) s) := by
  have hadm := (admission_of_reachesExtent h).trans hc
  obtain ⟨hp, -, -, -, -, -, -, hx⟩ := h
  rw [exec_jobOpener_of_named hp hadm, reports_of_defined hx]

/-- Settles O7: the lookup by its two outcomes, and each check in a state that the checks before it pass. -/
theorem openerRefusedByTheFirstCheck : Obligations.OpenerRefusedByTheFirstCheck := by
  unfold Obligations.OpenerRefusedByTheFirstCheck
  refine ⟨fun n lba last s => ?_, fun m o s hp hm => ⟨fun h => ?_, fun hfree h => ?_, fun hfree hrun h => ?_,
    fun hfree hrun h0 h => ?_, fun hfree hrun _ hend h => ?_⟩, fun m o e x s h => ⟨fun hb => ?_,
    fun c hb hc hstop => ?_, fun k hb hc hk hw hs => ?_⟩⟩
  · intro contains
    have hcontains (e : ExtentId) (p : Span) :
        contains e p ↔ spanIn n s.extents[e] = some p ∧ p.has lba = true := by
      simp only [contains, spanIn_eq_some, Span.has_iff, ← exists_and_right, and_assoc]
    refine ⟨fun ⟨e, p, he⟩ => ?_, fun hnone => ?_⟩
    · obtain ⟨hp, hlba⟩ := (hcontains e p).1 he
      obtain ⟨f, hf⟩ : ∃ f, definedAt n lba s = some f :=
        Option.ne_none_iff_exists'.1 fun h => definedAt_eq_none.1 h e p hp hlba
      obtain ⟨q, hq, hlba⟩ := definedAt_eq_some hf
      have hat : extentAt n lba s = f := by simp only [extentAt, hf, Option.getD_some]
      rw [hat]
      exact ⟨q, (hcontains f q).2 ⟨hq, hlba⟩, spanWithin_of_defined hf hq⟩
    · have hglobal : definedAt n lba s = none :=
        definedAt_eq_none.2 fun e p hp hlba => hnone e p ((hcontains e p).2 ⟨hp, hlba⟩)
      refine ⟨by simp only [extentAt, hglobal, Option.getD_none], (spanWithin_of_global hglobal).trans ?_⟩
      simp only [spanIn_eq_some, forall_exists_index, and_imp]
      exact ⟨fun h e x p => h e p x, fun h e p x => h e x p⟩
  · exact exec_jobOpener_of_unnamed hp (admission_of_tagInUse hm h)
  · refine exec_jobOpener_of_unnamed hp (admission_of_notRunning hm hfree ?_)
    cases hpower : s.power with
    | run => exact absurd hpower h
    | _ => rfl
  · exact exec_jobOpener_of_unnamed hp ((admission_of_run hm hfree hrun).trans (judgeSpan_of_absent h))
  · exact exec_jobOpener_of_unnamed hp ((admission_of_run hm hfree hrun).trans (judgeSpan_of_beyondEnd h0 h))
  · exact exec_jobOpener_of_named hp ((admission_of_run hm hfree hrun).trans (judgeSpan_of_straddle hend h))
  · exact exec_jobOpener_of_reached h (judgeExtent_of_barred o e s hb)
  · exact exec_jobOpener_of_reached h ((judgeExtent_of_maskable e s hb hc).trans (masked_of_stop e hstop))
  · exact exec_jobOpener_of_reached h (judgeExtent_of_worn e hb hc hk hw hs)

end Sys2Proof.Machine
end

section
/-! PROOFS. Passes whose tag check fails (O16). -/

namespace Sys2Proof.Machine

/-! ## Failed tag checks (R39, R85) -/

/-- A stored tag that differs from the deciphered data's fails its check. -/
theorem passResult_of_failed {p : Pass} {b : Buffer} (hm : p.mode = .tagged) (hd : p.direction = .decipher)
    (h : b.tag ≠ some (Config.sectorTag p.size p.key p.tweak
      (transform p.size p.key p.tweak .decipher b.data))) : passResult p b = .tagFailed := by
  simp only [passResult, hm, hd, h, if_false]

theorem tagMask_of_defined {e : ExtentId} {x : Extent} {s : State} (hx : s.extents[e] = some x) :
    tagMask e s = x.policy.maskTagMismatch := by
  simp only [tagMask, hx]

/-- A sector to be filled is held as it stands, with the fill marking. -/
theorem takeResult_of_filled {p : Pass} {j : Job} {s : State} (hkeeps : j.keeps p.index = true)
    (hmask : tagMask j.extent s = .fill) :
    takeResult p j .tagFailed s =
      setBuffer p.buffer { s.buffers[p.buffer] with use := .held }
        (setJob p.tag
          (some
            { j with hold := insertHeld { index := p.index, buffer := p.buffer, fill := true } j.hold
                     substituted := j.substituted + 1 })
          s) := by
  simp only [takeResult, hkeeps, hmask, if_true]

/-- A sector that stops its job gives its buffer back first (R12, log 37). -/
theorem takeResult_of_stopped {p : Pass} {j : Job} {s : State} (hkeeps : j.keeps p.index = true)
    (hmask : tagMask j.extent s = .stop) :
    takeResult p j .tagFailed s =
      stopJob p.tag p.index .tagMismatch (freed p.buffer (setJob p.tag (some j) s)) := by
  simp only [takeResult, hkeeps, hmask, if_true, releaseBuffer_eq_freed]

/-- A condition stops a job that is ACTIVE, or that another had stopped at a higher index (R3). -/
theorem stopJob_of_open {t : TagId} {j : Job} {i : Nat} (c : StopCondition) {s : State}
    (hj : s.jobs[t] = some j)
    (hopen : j.state = .active ∨ ∃ k c, j.state = .ending k (.stop c) ∧ i < k) (hw : s.withheld = none) :
    stopJob t i c s = endedAt t j i (.stop c) s := by
  obtain ha | ⟨k, d, he, hi⟩ := hopen
  · exact stopJob_of_active i c hj ha hw
  · simp only [stopJob, hj, Option.map, he, hi, if_true]
    exact endJob_of_none _ _ hj hw

section

variable (k : SlotId) (s : State)

theorem countedUse_jobs : (countedUse k s).jobs = s.jobs := by rw [countedUse_changes]
theorem countedUse_pipes : (countedUse k s).pipes = s.pipes := by rw [countedUse_changes]
theorem countedUse_buffers : (countedUse k s).buffers = s.buffers := by rw [countedUse_changes]
theorem countedUse_extents : (countedUse k s).extents = s.extents := by rw [countedUse_changes]

end

/-- Settles O16: the check fails and the job keeps the sector, so the extent's mask decides between its two fates. -/
theorem failedTagFollowsMask : Obligations.FailedTagFollowsMask := by
  unfold Obligations.FailedTagFollowsMask
  intro i p j x s hp hpass hj hopen hx hi hc hm hd htag c idle
  have hstate : j.state = .active ∨ ∃ k why, j.state = .ending k why ∧ p.index < k :=
    hopen.imp_right fun ⟨k, d, he, hk⟩ => ⟨k, .stop d, he, hk⟩
  have hkeeps : ({ j with sectorsInPipes := j.sectorsInPipes - 1 } : Job).keeps p.index = true :=
    keeps_of_toEmit hstate
  have hfailed := passResult_of_failed hm hd htag
  have hjobs : c.jobs = s.jobs := countedUse_jobs p.slot s
  have hpipes : c.pipes = s.pipes := countedUse_pipes p.slot s
  have hbuffers : c.buffers = s.buffers := countedUse_buffers p.slot s
  have hmask : tagMask j.extent c = x.policy.maskTagMismatch :=
    tagMask_of_defined (by rw [countedUse_extents]; exact hx)
  refine ⟨fun hfill => ?_, fun hstop => ?_⟩
  · rw [exec_pipeCompletion i hp, completePass_of_job hpass hj, hfailed,
      takeResult_of_filled hkeeps (hmask.trans hfill)]
    simp only [setPipe, setBuffer, setJob, hjobs, hpipes, hbuffers]
    rw [closeIfDone_of_left (t := p.tag) (j := { j with
        sectorsInPipes := j.sectorsInPipes - 1
        substituted := j.substituted + 1
        hold := insertHeld { index := p.index, buffer := p.buffer, fill := true } j.hold })
        (by simp) (not_emittedAll_of_toEmit hstate hi hc),
      lockingStepIfDue_of_job ⟨p.tag, by simp⟩]
  · intro u v hv
    have hu : freed p.buffer (setJob p.tag (some { j with sectorsInPipes := j.sectorsInPipes - 1 }) c) = u := by
      rw [setJob, hjobs]
    have hupipes : u.pipes = s.pipes := by
      rw [← hu, ← releaseBuffer_eq_freed, (JobFrame.of_releaseBuffer _ _).pipes, setJob_pipes, hpipes]
    have hvstate : v.state = j.state := by
      obtain ⟨n, hn⟩ := freed_job p.buffer (t := p.tag)
        (j := { j with sectorsInPipes := j.sectorsInPipes - 1 })
        (s := setJob p.tag (some { j with sectorsInPipes := j.sectorsInPipes - 1 }) c) (by simp)
      rw [hu, hv, Option.some.injEq] at hn
      rw [hn]
    rw [exec_pipeCompletion i hp, completePass_of_job hpass hj, hfailed,
      takeResult_of_stopped hkeeps (hmask.trans hstop), hu,
      stopJob_of_open .tagMismatch hv (by rwa [hvstate]) (freed_withheld _ _)]
    simp only [setPipe, endedAt, hupipes]
    rfl

end Sys2Proof.Machine
end

section
/-! PROOFS. The try counts (O58). What a rule does to them is one of two things: it keeps every extent's tries and asks
for no new proof of a credential (KeepsTries), or it is one of the few rules that write tries or limits. -/

namespace Sys2Proof.Machine

/-! ## Tries, and the request whose credential is being tried -/

/-- An extent's tries are within its limit, and it is barred exactly at the limit (R46). -/
def Extent.triesSound (x : Extent) : Prop :=
  1 ≤ x.policy.tryLimit ∧ x.tryCount ≤ x.policy.tryLimit ∧ (x.barred = true ↔ x.tryCount = x.policy.tryLimit)

/-- What R46 speaks of in an extent's record. -/
def Extent.tries (x : Extent) : Nat × Nat × Bool := (x.policy.tryLimit, x.tryCount, x.barred)

/-- The extent whose credential a request is still trying. -/
def LongRequest.trying : LongRequest → Option ExtentId
  | .unlock e _ _ => some e
  | .rewrap e false => some e
  | _ => none

/-- The extent whose credential the executing request is still trying, if there is one. -/
def tryingExtent (s : State) : Option ExtentId :=
  s.executing.bind fun x => x.request.trying

theorem LongRequest.trying_eq_some {r : LongRequest} {e : ExtentId} :
    r.trying = some e ↔ (∃ d k, r = .unlock e d k) ∨ r = .rewrap e false := by
  rcases r with ⟨e', d, k⟩ | ⟨e', _ | _⟩ | _ | _ <;> simp [LongRequest.trying]

theorem tryingExtent_of_executing {seq : Byte} {r : LongRequest} {s : State}
    (h : s.executing = some { seq := seq, request := r }) : tryingExtent s = r.trying := by
  rw [tryingExtent, h, Option.bind_some]

theorem tryingExtent_of_idle {s : State} (h : s.executing = none) : tryingExtent s = none := by
  rw [tryingExtent, h, Option.bind_none]

theorem tryingUnbarred_iff (s : State) :
    tryingUnbarred s ↔ ∀ e, tryingExtent s = some e → ∃ x, s.extents[e] = some x ∧ x.barred = false := by
  constructor
  · intro h e he
    obtain ⟨⟨seq, r⟩, hx, hr⟩ := Option.bind_eq_some_iff.1 he
    exact h seq r e hx (LongRequest.trying_eq_some.1 hr)
  · intro h seq r e hx hr
    exact h e ((tryingExtent_of_executing hx).trans (LongRequest.trying_eq_some.2 hr))

/-- The invariant of a part that has power. -/
structure TriesHeld (s : State) : Prop where
  trying : ∀ e, tryingExtent s = some e → ∃ x, s.extents[e] = some x ∧ x.barred = false
  extents : ∀ (e : ExtentId) (x : Extent), s.extents[e] = some x → x.triesSound

theorem triesWithinLimit_iff (s : State) : TriesWithinLimit s ↔ (s.powered = true → TriesHeld s) := by
  unfold TriesWithinLimit
  rw [tryingUnbarred_iff]
  exact ⟨fun h hp => ⟨(h hp).1, (h hp).2⟩, fun h hp => ⟨(h hp).trying, (h hp).extents⟩⟩

theorem Extent.triesSound_of_tries {x y : Extent} (h : y.tries = x.tries) (hx : x.triesSound) :
    y.triesSound := by
  simp only [Extent.tries, Prod.mk.injEq] at h
  obtain ⟨hlimit, hcount, hbarred⟩ := h
  rwa [Extent.triesSound, hlimit, hcount, hbarred]

/-- An extent that is not barred has a try left. -/
theorem Extent.tryLeft {x : Extent} (h : x.triesSound) (hb : x.barred = false) :
    x.tryCount < x.policy.tryLimit := by
  obtain ⟨-, hle, hiff⟩ := h
  have : x.tryCount ≠ x.policy.tryLimit := fun he => by simp [hiff.2 he] at hb
  omega

/-- An extent that is not barred and has a try left. -/
theorem Extent.triesSound_of_lt {x : Extent} (hb : x.barred = false) (h : x.tryCount < x.policy.tryLimit) :
    x.triesSound := by
  refine ⟨by omega, by omega, ?_⟩
  rw [hb]
  simp only [Bool.false_eq_true, false_iff]
  omega

/-! ## Rules that leave the tries alone -/

/-- Every extent keeps its limit, its count and its bar, and no request begins to try a credential. -/
structure KeepsTries (s t : State) : Prop where
  extents : ∀ e : ExtentId, t.extents[e].map Extent.tries = s.extents[e].map Extent.tries
  trying : tryingExtent t = none ∨ tryingExtent t = tryingExtent s

theorem KeepsTries.refl (s : State) : KeepsTries s s := ⟨fun _ => rfl, .inr rfl⟩

theorem KeepsTries.trans {s t u : State} (h : KeepsTries s t) (k : KeepsTries t u) : KeepsTries s u := by
  refine ⟨fun e => (k.extents e).trans (h.extents e), ?_⟩
  rcases k.trying with hu | hu
  · exact .inl hu
  · rw [hu]
    exact h.trying

theorem KeepsTries.of_same {s t : State} (hx : t.extents = s.extents) (he : t.executing = s.executing) :
    KeepsTries s t :=
  ⟨fun e => by rw [hx], .inr (by rw [tryingExtent, he]; rfl)⟩

theorem KeepsTries.of_untried {s t : State} (hx : t.extents = s.extents) (he : tryingExtent t = none) :
    KeepsTries s t :=
  ⟨fun e => by rw [hx], .inl he⟩

/-- What follows changes neither extents nor the executing request. -/
theorem KeepsTries.then_same {s t u : State} (k : KeepsTries s t) (hx : u.extents = t.extents)
    (he : u.executing = t.executing) : KeepsTries s u :=
  k.trans (.of_same hx he)

/-- What went before changed neither extents nor the executing request. -/
theorem KeepsTries.after_same {s t u : State} (k : KeepsTries t u) (hx : t.extents = s.extents)
    (he : t.executing = s.executing) : KeepsTries s u :=
  (KeepsTries.of_same hx he).trans k

/-- What keeps the tries keeps the invariant. -/
theorem KeepsTries.held {s t : State} (k : KeepsTries s t) (h : TriesHeld s) : TriesHeld t := by
  refine ⟨fun e he => ?_, fun e y hy => ?_⟩
  · rcases k.trying with hn | hs
    · simp [hn] at he
    · obtain ⟨x, hx, hb⟩ := h.trying e (hs ▸ he)
      have hkept := k.extents e
      rw [hx, Option.map_some, Option.map_eq_some_iff] at hkept
      obtain ⟨y, hy, hxy⟩ := hkept
      simp only [Extent.tries, Prod.mk.injEq] at hxy
      obtain ⟨-, -, hbarred⟩ := hxy
      exact ⟨y, hy, hbarred.trans hb⟩
  · have hkept := k.extents e
    rw [hy, Option.map_some, eq_comm, Option.map_eq_some_iff] at hkept
    obtain ⟨x, hx, hxy⟩ := hkept
    exact Extent.triesSound_of_tries hxy.symm (h.extents e x hx)

theorem TriesHeld.of_same {s t : State} (h : TriesHeld s) (hx : t.extents = s.extents)
    (he : t.executing = s.executing) : TriesHeld t :=
  (KeepsTries.of_same hx he).held h

/-! ### Records that are rewritten -/

theorem getElem_extents_set (v : Vector (Option Extent) 24) (e i : ExtentId) (y : Option Extent) :
    (v.set e y)[i] = if e = i then y else v[i] := by
  simp only [Fin.getElem_fin, Vector.getElem_set, Fin.ext_iff]

/-- A record that keeps its tries takes the place of another. -/
theorem KeepsTries.of_setExtent {e : ExtentId} {y : Option Extent} {s : State}
    (h : y.map Extent.tries = s.extents[e].map Extent.tries) : KeepsTries s (setExtent e y s) := by
  refine ⟨fun i => ?_, .inr rfl⟩
  rw [setExtent_extents, getElem_extents_set]
  split_ifs with hi
  · rw [h, hi]
  · rfl

theorem KeepsTries.of_updateExtent (e : ExtentId) {f : Extent → Extent} (hf : ∀ x, (f x).tries = x.tries)
    (s : State) : KeepsTries s (updateExtent e f s) := by
  refine .of_setExtent ?_
  rw [Option.map_map]
  exact congrArg (Option.map · _) (funext hf)

theorem KeepsTries.of_releaseExtent (c : ReleaseCause) (e : ExtentId) (s : State) :
    KeepsTries s (releaseExtent c e s) := by
  rcases hx : s.extents[e] with _ | x
  · have : releaseExtent c e s = s := by simp only [releaseExtent, hx]
    rw [this]
    exact .refl s
  · refine KeepsTries.then_same (.of_setExtent (e := e) ?_) (releaseExtent_extents c hx) ?_
    · show some x.tries = _
      rw [hx]
      rfl
    · rw [releaseExtent_changes]
      rfl

theorem KeepsTries.of_loadKey (k : SlotId) (e : ExtentId) (key : LoadedKey) (s : State) :
    KeepsTries s (loadKey k e key s) := by
  rcases hx : s.extents[e] with _ | x
  · have : loadKey k e key s = s := by simp only [loadKey, hx]
    rw [this]
    exact .refl s
  · rw [loadKey_of_defined k key hx]
    refine KeepsTries.after_same (.of_setExtent ?_) rfl rfl
    rw [setSlot_extents, hx]
    rfl

/-! ### Requests that end -/

theorem KeepsTries.of_endRequest (n : RequestName) (seq : Byte) (c : ResultCode) (items : List Item)
    (s : State) : KeepsTries s (endRequest n seq c items s) :=
  .of_untried rfl rfl

theorem KeepsTries.of_answerErase (seq : Byte) (e : ExtentId) (w : WriteEnd) (s : State) :
    KeepsTries s (answerErase seq e w s) := by
  unfold answerErase
  cases w.outcome <;> exact .of_endRequest ..

theorem KeepsTries.of_settleStale (e : ExtentId) (stale : Bool) (s : State) :
    KeepsTries s (settleStale e stale s) := by
  have hstale := KeepsTries.of_updateExtent e (f := fun x => { x with storeStale := stale }) (fun _ => rfl) s
  unfold settleStale
  cases stale with
  | true => exact hstale.then_same rfl rfl
  | false => exact hstale

theorem KeepsTries.of_eraseWritten (seq : Byte) (e : ExtentId) (drain : Option SlotId) (w : WriteEnd)
    (s : State) : KeepsTries s (eraseWritten seq e drain w s) := by
  refine (KeepsTries.of_settleStale e (decide (w.outcome ≠ .verified)) s).trans ?_
  cases drain with
  | none => exact .of_answerErase ..
  | some k => exact .of_untried rfl rfl

theorem KeepsTries.of_generateLoad (e : ExtentId) (d : Directions) (slot : SlotId) (k : LoadedKey)
    (s : State) : KeepsTries s (generateLoad e d slot k s) := by
  have hunlocked := KeepsTries.of_updateExtent e (f := fun x => { x.unlocked d with storeStale := false })
    (fun _ => rfl) (loadKey slot e k s)
  have hloaded := (KeepsTries.of_loadKey slot e k s).trans hunlocked
  unfold generateLoad
  exact hloaded.then_same rfl rfl

theorem KeepsTries.of_generateEnd (seq : Byte) (e : ExtentId) (d : Directions) (slot : SlotId)
    (w : WriteEnd) (s : State) : KeepsTries s (generateEnd seq e d slot w s) := by
  unfold generateEnd
  split
  · next k _ _ => exact (KeepsTries.of_generateLoad e d slot k s).trans (.of_endRequest ..)
  · exact .of_untried rfl rfl

/-- The end of a write operation tries no credential. -/
theorem KeepsTries.of_writeEnded (w : WriteEnd) (s : State) : KeepsTries s (writeEnded w s) := by
  unfold writeEnded
  split
  · exact .of_endRequest ..
  · exact .of_eraseWritten ..
  · exact .of_generateEnd ..
  · exact .refl s

theorem KeepsTries.of_requestAbandoned (facts : WriteFacts) (s : State) :
    KeepsTries s (requestAbandoned facts s) := by
  unfold requestAbandoned
  rcases s.executing with _ | ⟨seq, r⟩
  · exact .refl s
  · cases r with
    | unlock e d slot => cases slot <;> exact .of_untried rfl rfl
    | rewrap e proven => exact .of_endRequest ..
    | erase e drain written => exact (KeepsTries.of_settleStale ..).trans (.of_endRequest ..)
    | generate e d slot => exact .of_untried rfl rfl

/-! ### Jobs -/

theorem releaseBuffers_executing (bs : List BufferId) (s : State) :
    (releaseBuffers bs s).executing = s.executing := by rw [releaseBuffers_changes]

theorem endJob_executing (t : TagId) (k : Nat) (why : EndReason) (s : State) :
    (endJob t k why s).executing = s.executing := by
  unfold endJob
  split
  · rfl
  · exact releaseBuffers_executing _ _

theorem stopJob_executing (t : TagId) (k : Nat) (c : StopCondition) (s : State) :
    (stopJob t k c s).executing = s.executing := by
  unfold stopJob
  split
  · rfl
  · exact endJob_executing ..
  · split
    · exact endJob_executing ..
    · rfl
  · rfl

theorem cutJob_executing (t : TagId) (r : CutReason) (s : State) :
    (cutJob t r s).executing = s.executing := by
  unfold cutJob
  split
  · rfl
  · split
    · rfl
    · exact endJob_executing ..

theorem KeepsTries.of_releaseBuffer (b : BufferId) (s : State) : KeepsTries s (releaseBuffer b s) :=
  .of_same (JobFrame.of_releaseBuffer b s).extents (releaseBuffers_executing [b] s)

theorem KeepsTries.of_stopJob (t : TagId) (k : Nat) (c : StopCondition) (s : State) :
    KeepsTries s (stopJob t k c s) :=
  .of_same (JobFrame.of_stopJob t k c s).extents (stopJob_executing t k c s)

theorem KeepsTries.of_emitCloser (c : Closer) (s : State) : KeepsTries s (emitCloser c s) := by
  unfold emitCloser
  split <;> exact .of_same rfl rfl

/-- A drain that ends tells an ERASE, which tries no credential. -/
theorem KeepsTries.of_drainEnded (k : SlotId) (s : State) : KeepsTries s (drainEnded k s) := by
  unfold drainEnded
  split
  · split
    · split
      · exact .of_answerErase ..
      · exact .of_untried rfl rfl
    · exact .refl s
  · exact .refl s

theorem KeepsTries.of_unpin (k : SlotId) (s : State) : KeepsTries s (unpin k s) := by
  unfold unpin
  simp only
  split
  · split
    · exact (KeepsTries.of_drainEnded ..).after_same rfl rfl
    · exact .of_same rfl rfl
  · exact .of_same rfl rfl

theorem KeepsTries.of_closeJob (t : TagId) (j : Job) (s : State) : KeepsTries s (closeJob t j s) := by
  have hunpin : ∀ u, KeepsTries u (unpinJob j.mode u) := by
    intro u
    cases j.mode with
    | cipher k => exact .of_unpin k u
    | fill c => exact .refl u
  have hremoved : KeepsTries s (setJob t none (unpinJob j.mode (emitCloser (closerOf t j) s))) :=
    ((KeepsTries.of_emitCloser _ s).trans (hunpin _)).then_same rfl rfl
  unfold closeJob
  simp only
  split
  · exact hremoved.then_same rfl rfl
  · exact hremoved

theorem KeepsTries.of_closeIfDone (t : TagId) (s : State) : KeepsTries s (closeIfDone t s) := by
  unfold closeIfDone
  split
  · exact .refl s
  · split
    · exact .of_closeJob ..
    · exact .refl s

theorem KeepsTries.of_cutJobs (named : Job → Bool) (r : CutReason) (s : State) :
    KeepsTries s (cutJobs named r s) := by
  unfold cutJobs
  induction List.finRange 48 generalizing s with
  | nil => exact .refl s
  | cons t ts ih =>
    refine .trans ?_ (ih _)
    beta_reduce
    split
    · exact .refl s
    · split
      · exact (KeepsTries.of_closeIfDone ..).after_same (JobFrame.of_cutJob t r s).extents (cutJob_executing t r s)
      · exact .refl s

theorem KeepsTries.of_cutIf (cut : Bool) (named : Job → Bool) (r : CutReason) (s : State) :
    KeepsTries s (cutIf cut named r s) := by
  cases cut
  · exact .refl s
  · exact .of_cutJobs named r s

theorem KeepsTries.of_overrun (t : TagId) (s : State) : KeepsTries s (overrun t s) := by
  unfold overrun
  split
  · exact .refl s
  · exact KeepsTries.after_same ((KeepsTries.of_stopJob ..).trans (.of_closeIfDone ..)) rfl rfl

theorem KeepsTries.of_takeOpener (m : OpenerMsg) (s : State) : KeepsTries s (takeOpener m s) := by
  unfold takeOpener
  split
  · exact .of_emitCloser ..
  · exact .of_same rfl rfl
  · exact .of_same rfl rfl

theorem KeepsTries.of_listSector (t : TagId) (data : Bytes) (stored : Option SectorTag) (b : BufferId)
    (s : State) : KeepsTries s (listSector t data stored b s) := by
  unfold listSector
  split <;> exact .of_same rfl rfl

theorem KeepsTries.of_takeSector (t : TagId) (data : Bytes) (stored : Option SectorTag) (s : State) :
    KeepsTries s (takeSector t data stored s) := by
  unfold takeSector
  split
  · exact .of_listSector ..
  · split
    · exact .of_same rfl rfl
    · exact .of_overrun ..

theorem KeepsTries.of_malformedSector (t : TagId) (j : Job) (s : State) :
    KeepsTries s (malformedSector t j s) :=
  (KeepsTries.of_stopJob ..).trans (.of_closeIfDone ..)

theorem KeepsTries.of_sectorOfActive (t : TagId) (j : Job) (m : SectorInMsg) (s : State) :
    KeepsTries s (sectorOfActive t j m s) := by
  unfold sectorOfActive
  split
  · exact .of_malformedSector ..
  · split
    · exact .of_malformedSector ..
    · split
      · exact .of_same rfl rfl
      · split
        · exact .of_takeSector ..
        · exact .of_malformedSector ..

theorem KeepsTries.of_deliver (m : DataMsg) (s : State) : KeepsTries s (deliver m s) := by
  cases m with
  | unknown => exact .of_same rfl rfl
  | sector m =>
    show KeepsTries s (deliverSector m s)
    unfold deliverSector
    split
    · exact .of_same rfl rfl
    · split
      · exact .of_same rfl rfl
      · split
        · exact .refl s
        · split
          · exact .of_same rfl rfl
          · exact .of_sectorOfActive ..

theorem KeepsTries.of_arriveData (m : DataMsg) (s : State) : KeepsTries s (arriveData m s) := by
  unfold arriveData
  split
  · exact .of_deliver m s
  · exact .of_same rfl rfl

theorem KeepsTries.of_handOver (p : PipeId) (s : State) : KeepsTries s (handOver p s) := by
  unfold handOver
  split
  · split
    · exact .refl s
    · split
      · split
        · split
          · exact .of_same rfl rfl
          · exact .refl s
        · exact .refl s
      · exact .refl s
  · exact .refl s

theorem KeepsTries.of_countUse (k : SlotId) (s : State) : KeepsTries s (countUse k s) := by
  rw [countUse_changes]
  exact .of_same rfl rfl

theorem KeepsTries.of_takeResult (p : Pass) (j : Job) (res : PassResult) (s : State) :
    KeepsTries s (takeResult p j res s) := by
  have hjob : KeepsTries s (setJob p.tag (some j) s) := .of_same rfl rfl
  unfold takeResult
  split
  · split
    · exact .of_same rfl rfl
    · split
      · exact .of_same rfl rfl
      · exact (hjob.trans (.of_releaseBuffer ..)).trans (.of_stopJob ..)
  · exact hjob.trans (.of_releaseBuffer ..)

theorem KeepsTries.of_completePass (i : PipeId) (s : State) : KeepsTries s (completePass i s) := by
  unfold completePass
  split
  · exact .refl s
  · next p _ =>
    refine (KeepsTries.of_countUse p.slot s).trans ?_
    simp only
    split
    · exact (KeepsTries.of_releaseBuffer p.buffer (countUse p.slot s)).then_same rfl rfl
    · refine KeepsTries.trans ?_ (.of_closeIfDone ..)
      exact (KeepsTries.of_takeResult ..).then_same rfl rfl

theorem KeepsTries.of_acceptSector (t : TagId) (s : State) : KeepsTries s (acceptSector t s) := by
  unfold acceptSector
  split
  · exact .refl s
  · split
    · split
      · exact (KeepsTries.of_closeIfDone ..).after_same rfl rfl
      · exact .refl s
    · split
      · exact .refl s
      · exact KeepsTries.after_same ((KeepsTries.of_releaseBuffer ..).trans (.of_closeIfDone ..)) rfl rfl

/-! ### The locking step and the link -/

theorem KeepsTries.of_lockForHold (e : ExtentId) (s : State) : KeepsTries s (lockForHold e s) := by
  rw [lockForHold_changes, lockForHold_extents]
  refine KeepsTries.then_same (.of_setExtent (e := e) ?_) rfl rfl
  cases s.extents[e] with
  | none => rfl
  | some x =>
    simp only [Option.map_some]
    split <;> rfl

theorem KeepsTries.of_lockingStepIfDue (s : State) : KeepsTries s (lockingStepIfDue s) := by
  have hturns : ∀ (es : List ExtentId) (u : State), KeepsTries u (es.foldl (fun s e => lockForHold e s) u) := by
    intro es
    induction es with
    | nil => exact .refl
    | cons e es ih => exact fun u => (KeepsTries.of_lockForHold e u).trans (ih _)
  have hlocked := hturns (List.finRange 24) s
  unfold lockingStepIfDue lockingStep
  simp only
  generalize (List.finRange 24).foldl (fun s e => lockForHold e s) s = u at hlocked ⊢
  split
  · exact hlocked.then_same rfl rfl
  · exact .refl s

theorem KeepsTries.of_beginAttempt (x : Transaction) (s : State) : KeepsTries s (beginAttempt x s) := by
  rw [beginAttempt_eq]
  exact .of_same rfl rfl

theorem KeepsTries.of_linkFree (s : State) : KeepsTries s (linkFree s) := by
  rw [linkFree_changes]
  exact .of_same rfl rfl

/-! ## Rules that write tries -/

theorem tryingExtent_setExtent (e : ExtentId) (x : Option Extent) (s : State) :
    tryingExtent (setExtent e x s) = tryingExtent s := rfl

/-- A record is written that is sound, and not barred where its credential is being tried. -/
theorem TriesHeld.setExtent {e : ExtentId} {y : Option Extent} {s : State} (h : TriesHeld s)
    (hy : ∀ x, y = some x → x.triesSound)
    (htry : tryingExtent s = some e → ∃ x, y = some x ∧ x.barred = false) : TriesHeld (setExtent e y s) := by
  refine ⟨fun i hi => ?_, fun i x hx => ?_⟩
  · rw [tryingExtent_setExtent] at hi
    rw [setExtent_extents, getElem_extents_set]
    split_ifs with he
    · exact htry (he ▸ hi)
    · exact h.trying i hi
  · rw [setExtent_extents, getElem_extents_set] at hx
    split_ifs at hx with he
    · exact hy x hx
    · exact h.extents i x hx

/-- The executing request is rewritten by one that tries no credential, or that of an extent not barred. -/
theorem TriesHeld.setExecuting {x : Option Executing} {s : State} (h : TriesHeld s)
    (htry : ∀ e, (x.bind fun x => x.request.trying) = some e → ∃ y, s.extents[e] = some y ∧ y.barred = false) :
    TriesHeld (setExecuting x s) :=
  ⟨htry, h.extents⟩

/-- The count of an extent that is not barred begins again. -/
theorem TriesHeld.forgetTries {e : ExtentId} {f : Extent → Extent} {s : State} (h : TriesHeld s)
    (htry : tryingExtent s = some e) (hf : ∀ x, (f x).tries = (x.policy.tryLimit, 0, x.barred)) :
    TriesHeld (updateExtent e f s) := by
  obtain ⟨x, hx, hb⟩ := h.trying e htry
  have hfx := hf x
  simp only [Extent.tries, Prod.mk.injEq] at hfx
  obtain ⟨hlimit, hcount, hbarred⟩ := hfx
  rw [hb] at hbarred
  have hpos : 1 ≤ x.policy.tryLimit := (h.extents e x hx).1
  rw [updateExtent_of_defined f hx]
  refine h.setExtent (fun y hy => ?_) fun _ => ⟨f x, rfl, hbarred⟩
  cases hy
  exact Extent.triesSound_of_lt hbarred (by omega)

/-- A try that fails is counted, and bars its extent at the limit; the request ends with it (R98). -/
theorem TriesHeld.countTry {e : ExtentId} {s : State} (h : TriesHeld s) (htry : tryingExtent s = some e)
    (n : RequestName) (seq : Byte) (c : ResultCode) (items : List Item) :
    TriesHeld (endRequest n seq c items (countTry e s)) := by
  obtain ⟨x, hx, hb⟩ := h.trying e htry
  have hlt := Extent.tryLeft (h.extents e x hx) hb
  have hidle : TriesHeld (endRequest n seq c items s) := (KeepsTries.of_endRequest n seq c items s).held h
  have hwritten : ∀ y : Extent, y.triesSound →
      TriesHeld (Machine.setExtent e (some y) (endRequest n seq c items s)) := fun y hy =>
    hidle.setExtent (fun z hz => by cases hz; exact hy) fun ht => by simp [tryingExtent, endRequest] at ht
  simp only [Machine.countTry, hx]
  split
  · next hlast =>
    have hsound : Extent.triesSound { x with tryCount := x.tryCount + 1, barred := true } :=
      ⟨(h.extents e x hx).1, hlt, by simp [hlast]⟩
    exact (hwritten _ hsound).of_same rfl rfl
  · next hlast =>
    have hsound : Extent.triesSound { x with tryCount := x.tryCount + 1 } :=
      Extent.triesSound_of_lt hb (Nat.lt_of_le_of_ne hlt hlast)
    exact (hwritten _ hsound).of_same rfl rfl

/-! ### The ends of READ RECORD -/

theorem KeepsTries.of_freeAllocated (k : Option SlotId) (s : State) : KeepsTries s (freeAllocated k s) := by
  cases k <;> exact .of_same rfl rfl

theorem tryingExtent_freeAllocated (k : Option SlotId) (s : State) :
    tryingExtent (freeAllocated k s) = tryingExtent s := by
  cases k <;> rfl

theorem tryingExtent_loadKey (k : SlotId) (e : ExtentId) (key : LoadedKey) (s : State) :
    tryingExtent (loadKey k e key s) = tryingExtent s := by
  unfold loadKey
  split <;> rfl

theorem TriesHeld.unlockEnd {e : ExtentId} {s : State} (h : TriesHeld s) (htry : tryingExtent s = some e)
    (seq : Byte) (d : Directions) (slot : Option SlotId) (v : Verdict) :
    TriesHeld (unlockEnd seq e d slot v s) := by
  have hfreed : TriesHeld (freeAllocated slot s) := (KeepsTries.of_freeAllocated slot s).held h
  cases v with
  | sound k =>
    have hforgot : ∀ u, TriesHeld u → tryingExtent u = some e →
        TriesHeld (updateExtent e (fun x => { x.unlocked d with tryCount := 0 }) u) :=
      fun u hu ht => hu.forgetTries ht fun _ => rfl
    refine KeepsTries.held (.of_endRequest ..) ?_
    cases slot with
    | none => exact (hforgot s h htry).of_same rfl rfl
    | some n =>
      have hloaded := (KeepsTries.of_loadKey n e k s).held h
      exact (hforgot _ hloaded ((tryingExtent_loadKey n e k s).trans htry)).of_same rfl rfl
  | badCredential => exact hfreed.countTry ((tryingExtent_freeAllocated slot s).trans htry) ..
  | keyVoid => exact KeepsTries.held (.of_endRequest ..) hfreed
  | recordBad => exact KeepsTries.held (.of_endRequest ..) hfreed
  | link f => exact KeepsTries.held (.of_endRequest ..) hfreed

/-- A proven REWRAP tries no credential any longer. -/
theorem KeepsTries.of_rewrapWrite (seq : Byte) (e : ExtentId) (h : Handle) (r : KeyRecord) (new : Credential)
    (k : LoadedKey) (s : State) : KeepsTries s (rewrapWrite seq e h r new k s) := by
  unfold rewrapWrite
  rw [startWrite_eq]
  exact .of_untried rfl rfl

theorem TriesHeld.rewrapProof {e : ExtentId} {s : State} (hs : TriesHeld s) (htry : tryingExtent s = some e)
    (seq : Byte) (h : Handle) (old new : Credential) (read : Except LinkFailure KeyRecord) :
    TriesHeld (rewrapProof seq e h old new read s) := by
  unfold Machine.rewrapProof
  split
  · have hforgot := hs.forgetTries htry (f := fun x => { x with tryCount := 0 }) fun _ => rfl
    simp only
    split
    · exact KeepsTries.held (.of_rewrapWrite ..) (hforgot.of_same rfl rfl)
    · exact KeepsTries.held (.of_endRequest ..) hforgot
  · exact hs.countTry htry ..
  · exact KeepsTries.held (.of_endRequest ..) hs

theorem TriesHeld.readEnded {s : State} (hs : TriesHeld s) (h : Handle) (read : Except LinkFailure KeyRecord) :
    TriesHeld (readEnded h read s) := by
  unfold Machine.readEnded
  split
  · next hx =>
    split
    · exact hs.unlockEnd (tryingExtent_of_executing hx) ..
    · exact hs
  · next hx =>
    split
    · exact hs.rewrapProof (tryingExtent_of_executing hx) ..
    · exact hs
  · exact hs

/-- However a transaction ends, and whatever that means for its request. -/
theorem TriesHeld.endTransaction {s : State} (h : TriesHeld s) (x : Transaction) (r : TransactionResult)
    (rest : LinkState) : TriesHeld (endTransaction x r rest s) := by
  have hrest : ∀ op, TriesHeld (clearTransaction rest op s) := fun _ => h.of_same rfl rfl
  have hflag : ∀ op, TriesHeld (flagFailure r (clearTransaction rest op s)) := by
    intro op
    cases r <;> exact (hrest op).of_same rfl rfl
  unfold Machine.endTransaction
  simp only
  split
  · exact (hrest _).readEnded ..
  · exact (KeepsTries.of_writeEnded ..).held (hrest _)
  · exact (KeepsTries.of_beginAttempt ..).held (hrest _)
  · exact (hflag none).readEnded ..
  · exact (KeepsTries.of_writeEnded ..).held (hflag none)
  · exact (KeepsTries.of_requestAbandoned ..).held (hrest _)

end Sys2Proof.Machine
end

section
/-! PROOFS. The try counts (O58), rule by rule: the requests that write limits or begin to try a credential, the events
of the link and of power, and what time does. -/

namespace Sys2Proof.Machine

/-! ## Requests that write records -/

theorem inRange_eq_some {lo hi v n : Nat} (h : inRange lo hi v = some n) : lo ≤ n ∧ n ≤ hi := by
  unfold inRange at h
  split at h
  · next hv =>
    cases h
    exact hv
  · contradiction

/-- A field that is carried is one that its reader accepts. -/
theorem carried_eq_some {α : Type} {r : Request} {c : Nat} {f : Nat → Option α} {a : α}
    (h : carried r c f = some (some a)) : ∃ v, f v = some a := by
  unfold carried at h
  split at h
  · simp at h
  · next v _ =>
    obtain ⟨b, hb, heq⟩ := Option.map_eq_some_iff.1 h
    cases heq
    exact ⟨beNat v, hb⟩

/-- A carried try limit is not 0 (R48). -/
theorem policyUpdate?_tryLimit {r : Request} {u : PolicyUpdate} {n : Nat} (h : policyUpdate? r = some u)
    (hn : u.tryLimit = some n) : 1 ≤ n := by
  unfold policyUpdate? at h
  obtain ⟨limit, hlimit, h⟩ := Option.bind_eq_some_iff.1 h
  have hu : u.tryLimit = limit := by
    iterate 13 obtain ⟨_, -, h⟩ := Option.bind_eq_some_iff.1 h
    cases h
    rfl
  rw [hu] at hn
  subst hn
  obtain ⟨v, hv⟩ := carried_eq_some hlimit
  exact (inRange_eq_some hv).1

theorem policyArgs?_policy {r : Request} {a : PolicyArgs} (h : policyArgs? r = some a) :
    policyUpdate? r = some a.policy := by
  simp only [policyArgs?, Option.bind_eq_bind, Option.bind_eq_some_iff, Option.pure_def, Option.some.injEq] at h
  obtain ⟨-, -, -, -, u, hu, rfl⟩ := h
  exact hu

theorem defineArgs?_policy {r : Request} {a : DefineArgs} (h : defineArgs? r = some a) :
    policyUpdate? r = some a.policy := by
  simp only [defineArgs?, Option.bind_eq_bind, Option.bind_eq_some_iff, Option.pure_def, Option.some.injEq] at h
  obtain ⟨-, -, -, -, -, -, -, -, -, -, -, -, u, hu, rfl⟩ := h
  exact hu

/-- The checks of R55 on a DEFINED extent: a carried try limit needs an extent that is not barred, and a count below
it. -/
theorem policyRefusal_eq_none {a : PolicyArgs} {x : Extent} {s : State} (hx : s.extents[a.extent] = some x) :
    policyRefusal a s = none ↔ ∀ n, a.policy.tryLimit = some n → x.barred = false ∧ x.tryCount < n := by
  unfold policyRefusal
  rw [hx]
  rcases a.policy.tryLimit with _ | n
  · simp
  · simp only [Option.some.injEq, forall_eq']
    cases x.barred
    · by_cases hn : n ≤ x.tryCount
      · simp [hn]
      · have hlt : x.tryCount < n := by omega
        simp [hn, hlt]
    · simp

/-- A record that becomes DEFINED under a limit that is not 0. -/
theorem newExtent_triesSound (n : NamespaceId) (span : Option Span) (h : Handle) {p : Policy}
    (hp : 1 ≤ p.tryLimit) : (newExtent n span h p).triesSound :=
  Extent.triesSound_of_lt rfl hp

/-- While no request executes, a record is written that is sound. -/
theorem TriesHeld.define {e : ExtentId} {y : Option Extent} {s : State} (h : TriesHeld s)
    (hidle : s.executing = none) (hy : ∀ x, y = some x → x.triesSound) : TriesHeld (Machine.setExtent e y s) :=
  h.setExtent hy fun ht => by simp [tryingExtent_of_idle hidle] at ht

theorem TriesHeld.setNamespace {s : State} (h : TriesHeld s) (hidle : s.executing = none) (r : Request) :
    TriesHeld (setNamespace r s) := by
  unfold Machine.setNamespace
  split
  · exact h.of_same rfl rfl
  · next a _ =>
    split
    · exact h.of_same rfl rfl
    · have hsound : ∀ x, globalAfter a s = some x → x.triesSound := by
        intro x hx
        unfold globalAfter at hx
        split_ifs at hx with h0 h1
        · cases hx
          exact newExtent_triesSound _ _ _ (by decide)
        · split at hx
          · contradiction
          · next y hy =>
            cases hx
            refine Extent.triesSound_of_tries (x := y) ?_ (h.extents _ y hy)
            split <;> rfl
      have hwritten := h.define (e := globalOf a.ns) hidle hsound
      have happlied : TriesHeld (applyNamespace a s) := by
        unfold applyNamespace
        simp only
        split <;> exact hwritten.of_same rfl rfl
      exact happlied.of_same rfl rfl

theorem TriesHeld.defineExtent {s : State} (h : TriesHeld s) (hidle : s.executing = none) (r : Request) :
    TriesHeld (defineExtent r s) := by
  unfold Machine.defineExtent
  split
  · exact h.of_same rfl rfl
  · next a ha =>
    split
    · exact h.of_same rfl rfl
    · have hlimit : 1 ≤ (Policy.default.carry a.policy).tryLimit := by
        show 1 ≤ a.policy.tryLimit.getD 5
        rcases hn : a.policy.tryLimit with _ | n
        · decide
        · exact policyUpdate?_tryLimit (defineArgs?_policy ha) hn
      have happlied : TriesHeld (applyDefine a s) := by
        unfold applyDefine
        refine TriesHeld.of_same (h.define (e := a.extent) hidle fun x hx => ?_) rfl rfl
        cases hx
        exact newExtent_triesSound _ _ _ hlimit
      exact happlied.of_same rfl rfl

theorem TriesHeld.retireExtent {s : State} (h : TriesHeld s) (hidle : s.executing = none) (r : Request) :
    TriesHeld (retireExtent r s) := by
  unfold Machine.retireExtent
  split
  · exact h.of_same rfl rfl
  · next e _ =>
    split
    · exact h.of_same rfl rfl
    · exact (h.define (e := e) (y := none) hidle (by simp)).of_same rfl rfl

/-- A new limit above the count of an extent that is not barred leaves it so. -/
theorem Extent.triesSound_carry {x : Extent} (h : x.triesSound) {u : PolicyUpdate}
    (hu : ∀ n, u.tryLimit = some n → x.barred = false ∧ x.tryCount < n) :
    Extent.triesSound { x with policy := x.policy.carry u } := by
  rcases hn : u.tryLimit with _ | n
  · refine Extent.triesSound_of_tries (x := x) ?_ h
    simp only [Extent.tries, Policy.carry, hn, Option.getD_none]
  · obtain ⟨hb, hlt⟩ := hu n hn
    refine Extent.triesSound_of_lt hb ?_
    simpa only [Policy.carry, hn, Option.getD_some] using hlt

theorem policyToSlot_changes (u : PolicyUpdate) (k : SlotId) (s : State) :
    policyToSlot u k s =
      { s with slots := (policyToSlot u k s).slots, flags := (policyToSlot u k s).flags
               attn := (policyToSlot u k s).attn } := by
  unfold policyToSlot
  simp only
  split <;> rfl

theorem TriesHeld.setPolicy {s : State} (h : TriesHeld s) (hidle : s.executing = none) (r : Request) :
    TriesHeld (setPolicy r s) := by
  unfold Machine.setPolicy
  split
  · exact h.of_same rfl rfl
  · next a ha =>
    split
    · exact h.of_same rfl rfl
    · exact h.of_same rfl rfl
    · next x hnone hx =>
      have hsound := Extent.triesSound_carry (h.extents _ x hx) ((policyRefusal_eq_none hx).1 hnone)
      have hwritten := h.define (e := a.extent) hidle
        (y := some { x with policy := x.policy.carry a.policy }) (fun y hy => by cases hy; exact hsound)
      have happlied : TriesHeld (applyPolicy a x s) := by
        unfold applyPolicy
        simp only
        split
        · rw [policyToSlot_changes]
          exact hwritten.of_same rfl rfl
        · exact hwritten.of_same rfl rfl
      exact happlied.of_same rfl rfl

/-! ## Requests that reach keys -/

theorem KeepsTries.of_startRead (h : Handle) (s : State) : KeepsTries s (startRead h s) := by
  rw [startRead_eq]
  exact .of_same rfl rfl

theorem KeepsTries.of_startWrite (h : Handle) (r : KeyRecord) (s : State) : KeepsTries s (startWrite h r s) := by
  rw [startWrite_eq]
  exact .of_same rfl rfl

theorem allocateIf_extents (k : Option SlotId) (e : ExtentId) (s : State) :
    (allocateIf k e s).extents = s.extents := by
  cases k <;> rfl

theorem allocateIf_executing (k : Option SlotId) (e : ExtentId) (s : State) :
    (allocateIf k e s).executing = s.executing := by
  cases k <;> rfl

/-- The first check of UNLOCK on the extent (R94). -/
theorem unlockRefusal_barred {x : Extent} {s : State} (h : unlockRefusal x s = none) : x.barred = false := by
  unfold unlockRefusal at h
  split at h
  · contradiction
  · next hb => simpa using hb

/-- The first check of REWRAP on the extent (R103). -/
theorem rewrapRefusal_barred {x : Extent} {s : State} (h : rewrapRefusal x s = none) : x.barred = false := by
  unfold rewrapRefusal at h
  split at h
  · contradiction
  · next hb => simpa using hb

theorem TriesHeld.unlock {s : State} (h : TriesHeld s) (r : Request) : TriesHeld (unlock r s) := by
  unfold Machine.unlock
  split
  · exact h.of_same rfl rfl
  · next a _ =>
    split
    · exact h.of_same rfl rfl
    · next x hx =>
      split
      · exact h.of_same rfl rfl
      · next hnone =>
        have hallocated := h.of_same (allocateIf_extents (unlockSlot x s) a.extent s)
          (allocateIf_executing (unlockSlot x s) a.extent s)
        have htrying := hallocated.setExecuting
          (x := some { seq := r.seq, request := .unlock a.extent a.dirs (unlockSlot x s) }) fun e he => by
            obtain rfl : a.extent = e := by simpa [LongRequest.trying] using he
            exact ⟨x, by rw [allocateIf_extents]; exact hx, unlockRefusal_barred hnone⟩
        exact KeepsTries.held (.of_startRead ..) (htrying.of_same rfl rfl)

theorem TriesHeld.rewrap {s : State} (h : TriesHeld s) (r : Request) : TriesHeld (rewrap r s) := by
  unfold Machine.rewrap
  split
  · exact h.of_same rfl rfl
  · next a _ =>
    split
    · exact h.of_same rfl rfl
    · next x hx =>
      split
      · exact h.of_same rfl rfl
      · next hnone =>
        have htrying := h.setExecuting
          (x := some { seq := r.seq, request := .rewrap a.extent false }) fun e he => by
            obtain rfl : a.extent = e := by simpa [LongRequest.trying] using he
            exact ⟨x, hx, rewrapRefusal_barred hnone⟩
        exact KeepsTries.held (.of_startRead ..) (htrying.of_same rfl rfl)

/-- The locks and the key of an extent are not its tries. -/
theorem KeepsTries.of_lock (r : Request) (s : State) : KeepsTries s (lock r s) := by
  unfold lock
  split
  · exact .of_same rfl rfl
  · next a _ =>
    split
    · exact .of_same rfl rfl
    · have hcut := KeepsTries.of_cutIf a.cut (lockNames a) .cutLock s
      have hlocked := hcut.trans (.of_updateExtent a.extent (f := Extent.locked a.dirs) (fun _ => rfl) _)
      have hreleased : ∀ u, KeepsTries u (releaseIf a.forget a.extent u) := by
        intro u
        cases a.forget
        · exact .refl u
        · exact .of_releaseExtent .forget a.extent u
      unfold carryOutLock
      exact (hlocked.trans (hreleased _)).then_same rfl rfl

/-- An extent is not barred and without tries after ERASE, and its request tries no credential (R109). -/
theorem TriesHeld.erase {s : State} (h : TriesHeld s) (hidle : s.executing = none) (r : Request) :
    TriesHeld (erase r s) := by
  unfold Machine.erase
  split
  · exact h.of_same rfl rfl
  · next a _ =>
    split
    · exact h.of_same rfl rfl
    · next x _ =>
      have hcut := KeepsTries.of_cutIf a.cut (fun j => decide (j.extent = a.extent)) .cutErase s
      have hkept := hcut.trans (.of_releaseExtent .erase a.extent _)
      have hidle' : tryingExtent (releaseExtent .erase a.extent
          (cutIf a.cut (fun j => decide (j.extent = a.extent)) .cutErase s)) = none := by
        rcases hkept.trying with ht | ht
        · exact ht
        · rw [ht, tryingExtent_of_idle hidle]
      have hreleased := hkept.held h
      unfold carryOutErase
      simp only
      generalize cutIf a.cut _ .cutErase s = u at hreleased hidle' ⊢
      refine KeepsTries.held (.of_startWrite ..) ?_
      have hcleared : TriesHeld (updateExtent a.extent Extent.cleared (releaseExtent .erase a.extent u)) := by
        refine hreleased.setExtent (fun y hy => ?_) fun ht => by simp [hidle'] at ht
        obtain ⟨z, hz, rfl⟩ := Option.map_eq_some_iff.1 hy
        exact Extent.triesSound_of_lt rfl (hreleased.extents _ z hz).1
      refine (KeepsTries.of_untried ?_ ?_).held hcleared
      · rfl
      · rfl

/-- A GENERATE tries no credential. -/
theorem KeepsTries.of_generate (r : Request) (s : State) : KeepsTries s (generate r s) := by
  unfold generate
  split
  · exact .of_same rfl rfl
  · split
    · exact .of_same rfl rfl
    · unfold generateOn
      split
      · exact .of_same rfl rfl
      · split
        · exact .of_same rfl rfl
        · split
          · exact .of_same rfl rfl
          · refine KeepsTries.trans ?_ (.of_startWrite ..)
            exact .of_untried rfl rfl

/-! ## The other requests -/

theorem KeepsTries.of_queryExtent (r : Request) (s : State) : KeepsTries s (queryExtent r s) := by
  unfold queryExtent
  split
  · exact .of_same rfl rfl
  · split <;> exact .of_same rfl rfl

theorem KeepsTries.of_querySlot (r : Request) (s : State) : KeepsTries s (querySlot r s) := by
  unfold querySlot
  split <;> exact .of_same rfl rfl

theorem KeepsTries.of_identify (r : Request) (s : State) : KeepsTries s (identify r s) := by
  unfold identify
  split <;> exact .of_same rfl rfl

theorem KeepsTries.of_setLink (r : Request) (s : State) : KeepsTries s (setLink r s) := by
  have hdrop : ∀ u, KeepsTries u (dropWithheld u) := by
    intro u
    unfold dropWithheld
    split
    · exact (KeepsTries.of_overrun ..).after_same rfl rfl
    · exact .refl u
  unfold setLink
  split
  · exact .of_same rfl rfl
  · next a _ =>
    have happlied : KeepsTries s (applyLink a s) := (hdrop _).after_same rfl rfl
    exact happlied.then_same rfl rfl

theorem KeepsTries.of_setTick (r : Request) (s : State) : KeepsTries s (setTick r s) := by
  unfold setTick
  split
  · exact .of_same rfl rfl
  · next a _ =>
    obtain ⟨period, limit⟩ := a
    cases period <;> exact .of_same rfl rfl

theorem KeepsTries.of_readEvents (r : Request) (s : State) : KeepsTries s (readEvents r s) := by
  unfold readEvents
  split <;> exact .of_same rfl rfl

theorem KeepsTries.of_clearEvents (r : Request) (s : State) : KeepsTries s (clearEvents r s) := by
  unfold clearEvents
  split <;> exact .of_same rfl rfl

theorem KeepsTries.of_setEventEnables (r : Request) (s : State) : KeepsTries s (setEventEnables r s) := by
  unfold setEventEnables
  split <;> exact .of_same rfl rfl

/-- A request is answered, or reaches its own rule while none executes (R148, R149). -/
theorem TriesHeld.takeRequest {n : RequestName} {seq : Byte} {own : State → State} {s : State}
    (h : TriesHeld s) (hown : s.executing = none → TriesHeld (own s)) : TriesHeld (takeRequest n seq own s) := by
  unfold Machine.takeRequest
  split
  · exact h.of_same rfl rfl
  · next hx =>
    have hidle : s.executing = none := by simpa using hx
    split
    · exact hown hidle
    · split
      · exact h.of_same rfl rfl
      · exact hown hidle

/-! ## Events of the link -/

theorem TriesHeld.track {s : State} (h : TriesHeld s) (v : Tracking) (watch : Bool) :
    TriesHeld (track v watch s) :=
  h.of_same rfl rfl

theorem TriesHeld.endRead {s : State} (h : TriesHeld s) (rest : KeyRecord) : TriesHeld (endRead rest s) := by
  unfold Machine.endRead
  split
  · exact h
  · split
    · exact (h.track .free false).endTransaction ..
    · exact h

theorem TriesHeld.endWrite {s : State} (h : TriesHeld s) : TriesHeld (endWrite s) := by
  unfold Machine.endWrite
  split
  · exact h
  · split
    · exact (h.track .free false).endTransaction ..
    · exact h

theorem TriesHeld.addressNacked {s : State} (h : TriesHeld s) : TriesHeld (addressNacked s) := by
  unfold Machine.addressNacked
  split
  · exact h
  · split
    · simp only
      split
      · exact (h.track .free false).endTransaction ..
      · exact h.of_same rfl rfl
    · exact h

theorem TriesHeld.endPollWait {s : State} (h : TriesHeld s) : TriesHeld (endPollWait s) := by
  unfold Machine.endPollWait
  split
  · exact (KeepsTries.of_beginAttempt ..).held h
  · exact h

theorem TriesHeld.dataNacked {s : State} (h : TriesHeld s) (b : NackedByte) : TriesHeld (dataNacked b s) := by
  unfold Machine.dataNacked
  split
  · exact h
  · split
    · exact (h.track .free false).endTransaction ..
    · exact h

theorem TriesHeld.stretchOut {s : State} (h : TriesHeld s) (p : LinkPoint) : TriesHeld (stretchOut p s) := by
  unfold Machine.stretchOut
  split
  · exact h
  · split
    · exact (h.track .busyOther true).endTransaction ..
    · exact h

theorem TriesHeld.loseArbitration {s : State} (h : TriesHeld s) (x : Transaction) :
    TriesHeld (loseArbitration x s) := by
  unfold Machine.loseArbitration
  split
  · exact (KeepsTries.of_beginAttempt ..).held h
  · exact h.endTransaction ..

theorem TriesHeld.collide {s : State} (h : TriesHeld s) (x : Transaction) (p : LinkPoint) (rest : KeyRecord) :
    TriesHeld (collide x p rest s) := by
  unfold Machine.collide
  split
  · exact h.endTransaction ..
  · exact h.endTransaction ..
  · exact h.endTransaction ..
  · split
    · exact h.endTransaction ..
    · exact h.loseArbitration _
  · exact h.loseArbitration _

theorem TriesHeld.meetCollision {s : State} (h : TriesHeld s) (p : LinkPoint) (rest : KeyRecord) :
    TriesHeld (meetCollision p rest s) := by
  have hbusy : TriesHeld (trackBusy s) := h.track ..
  unfold Machine.meetCollision
  split
  · exact h
  · split
    · exact h
    · split
      · exact hbusy.collide ..
      · split
        · exact hbusy.endTransaction ..
        · exact h

theorem TriesHeld.freeWaitEnds {s : State} (h : TriesHeld s) : TriesHeld (freeWaitEnds s) := by
  unfold Machine.freeWaitEnds
  split
  · exact h.endTransaction ..
  · exact h

theorem TriesHeld.quiet {s : State} (h : TriesHeld s) : TriesHeld (quiet s) := by
  unfold Machine.quiet
  split
  · exact (KeepsTries.of_linkFree s).held h
  · exact h

theorem TriesHeld.abandonedStop {s : State} (h : TriesHeld s) : TriesHeld (abandonedStop s) := by
  unfold Machine.abandonedStop
  split
  · exact h
  · split
    · exact (h.track .free false).endTransaction ..
    · exact h

/-! ## Timers, the Random Source and time -/

theorem KeepsTries.of_countPeriod (s : State) : KeepsTries s (countPeriod s) := by
  unfold countPeriod
  split <;> exact .of_same rfl rfl

/-- An expiry locks an extent, or only says so (R143, R144). -/
theorem KeepsTries.of_expire (e : ExtentId) (s : State) : KeepsTries s (expire e s) := by
  unfold expire
  split
  · next x _ hx =>
    split
    · have hlocked : KeepsTries s (setExtent e (some { x with readLock := true, writeLock := true }) s) :=
        .of_setExtent (by rw [hx]; rfl)
      unfold lockIdle
      simp only
      split
      · exact (hlocked.trans (.of_releaseExtent ..)).then_same rfl rfl
      · exact hlocked.then_same rfl rfl
    · exact .of_same rfl rfl
    · exact .refl s
  · exact .refl s

theorem KeepsTries.of_takeSample (s : State) : KeepsTries s (takeSample s) := by
  unfold takeSample
  split
  · exact .of_same rfl rfl
  · exact .refl s

theorem KeepsTries.of_endWarmUp (s : State) : KeepsTries s (endWarmUp s) := by
  unfold endWarmUp
  split
  · exact .of_same rfl rfl
  · exact .refl s

theorem KeepsTries.of_failRepetition (s : State) : KeepsTries s (failRepetition s) := by
  unfold failRepetition
  split
  · exact .refl s
  · exact .of_same rfl rfl

theorem KeepsTries.of_timePasses (s : State) : KeepsTries s (timePasses s) := by
  have hdelivered : KeepsTries s (deliverNext s) := by
    unfold deliverNext
    split
    · refine KeepsTries.trans ?_ (.of_lockingStepIfDue _)
      exact (KeepsTries.of_deliver ..).after_same rfl rfl
    · exact .refl s
  have hadvanced : KeepsTries (deliverNext s) (advanceLink (deliverNext s)) := by
    rw [advanceLink_changes]
    exact .of_same rfl rfl
  unfold timePasses
  split
  · exact (hdelivered.trans hadvanced).trans (.of_countPeriod _)
  · exact .refl s

/-! ## Power -/

theorem TriesHeld.abandonRequest {s : State} (h : TriesHeld s) : TriesHeld (abandonRequest s) := by
  unfold Machine.abandonRequest
  split
  · exact h
  · split
    · exact (KeepsTries.of_requestAbandoned ..).held h
    · split
      · exact h.of_same rfl rfl
      · exact h.endTransaction ..

theorem TriesHeld.beginHoldEntry {s : State} (h : TriesHeld s) : TriesHeld (beginHoldEntry s) := by
  have habandoned : TriesHeld (Machine.abandonRequest { s with power := .quiescing }) :=
    TriesHeld.abandonRequest (h.of_same rfl rfl)
  exact habandoned.of_same rfl rfl

theorem TriesHeld.endCheck {s : State} (h : TriesHeld s) (p : PipeId) (passed : Bool) :
    TriesHeld (endCheck p passed s) := by
  have hended : ∀ u, TriesHeld u → TriesHeld (endSelfCheck u) := by
    intro u hu
    unfold endSelfCheck
    split
    · exact hu
    · split
      · split
        · exact TriesHeld.beginHoldEntry (hu.of_same rfl rfl)
        · exact hu.of_same rfl rfl
      · exact hu.of_same rfl rfl
  unfold Machine.endCheck
  split
  · refine hended _ ?_
    cases passed <;> exact h.of_same rfl rfl
  · exact h

theorem TriesHeld.expireDrain {s : State} (h : TriesHeld s) : TriesHeld (expireDrain s) := by
  unfold Machine.expireDrain
  split
  · have hstopped : TriesHeld { s with drainTimer := none } := h.of_same rfl rfl
    simp only
    split
    · exact hstopped
    · have hcut := (KeepsTries.of_cutJobs (fun _ => true) .cutHold _).held hstopped
      exact hcut.of_same (setFlag_extents ..) (setFlag_executing ..)
  · exact h

/-- No extent is DEFINED after a cold start, and no request executes (R157). -/
theorem triesHeld_startCold (s : State) : TriesHeld (startCold s) := by
  refine ⟨fun e he => ?_, fun e x hx => ?_⟩
  · have hidle : (startCold s).executing = none := rfl
    simp [tryingExtent_of_idle hidle] at he
  have hextents : (startCold s).extents = Blocks.coldStart.extents := rfl
  have hfree : (startCold s).extents[e] = none := by
    rw [hextents]
    simp [Blocks.coldStart]
  rw [hfree] at hx
  contradiction

theorem triesWithinLimit_raiseLine (l : SupplyLine) {s : State} (h : TriesWithinLimit s) :
    TriesWithinLimit (raiseLine l s) := by
  rw [triesWithinLimit_iff] at *
  unfold raiseLine
  split
  · exact h
  · simp only
    split
    · exact fun _ => triesHeld_startCold _
    · next hp => exact fun hp' => absurd hp' hp

/-- A part whose supply line has fallen has no power (R159). -/
theorem dropLine_powered {l : SupplyLine} {s : State} (h : lineLevel l s = true) :
    (dropLine l s).powered = false := by
  have hlow : (setLine l false s).powered = false := by
    cases l <;> simp [setLine, State.powered]
  simp only [dropLine, h, if_true]
  split
  · exact hlow
  · exact hlow

theorem triesWithinLimit_dropLine (l : SupplyLine) {s : State} (h : TriesWithinLimit s) :
    TriesWithinLimit (dropLine l s) := by
  cases hl : lineLevel l s with
  | true => exact (triesWithinLimit_iff _).2 fun hp => by simp [dropLine_powered hl] at hp
  | false =>
    have : dropLine l s = s := by simp [dropLine, hl]
    rwa [this]

theorem triesWithinLimit_raiseHold {s : State} (h : TriesWithinLimit s) : TriesWithinLimit (raiseHold s) := by
  rw [triesWithinLimit_iff] at *
  unfold raiseHold
  split
  · exact h
  · simp only
    split
    · next hrun =>
      obtain ⟨hp, -⟩ := hrun
      have hrisen : TriesHeld { s with holdLevel := true } := (h hp).of_same rfl rfl
      exact fun _ => (KeepsTries.of_lockingStepIfDue _).held hrisen.beginHoldEntry
    · exact fun hp => (h hp).of_same rfl rfl

theorem triesWithinLimit_dropHold {s : State} (h : TriesWithinLimit s) : TriesWithinLimit (dropHold s) := by
  rw [triesWithinLimit_iff] at *
  unfold dropHold
  split
  · simp only
    split <;> exact fun hp => (h hp).of_same rfl rfl
  · exact h

/-! ## Every command -/

theorem triesWithinLimit_rule {f : State → State} {s t : State} (h : TriesWithinLimit s)
    (hf : TriesHeld s → TriesHeld (f s)) (ht : rule f s = .next t) : TriesWithinLimit t := by
  cases hp : s.powered with
  | true =>
    rw [rule_of_powered f hp] at ht
    cases ht
    exact (triesWithinLimit_iff _).2 fun _ => hf ((triesWithinLimit_iff s).1 h hp)
  | false =>
    rw [rule_of_inert f hp] at ht
    cases ht
    exact h

theorem triesWithinLimit_closingRule {f : State → State} {s t : State} (h : TriesWithinLimit s)
    (hf : TriesHeld s → TriesHeld (f s)) (ht : closingRule f s = .next t) : TriesWithinLimit t :=
  triesWithinLimit_rule (f := fun u => lockingStepIfDue (f u)) h
    (fun hs => (KeepsTries.of_lockingStepIfDue _).held (hf hs)) ht

/-- A request whose own rule keeps the tries while no other request executes. -/
theorem triesWithinLimit_request {n : RequestName} {seq : Byte} {own : State → State} {s t : State}
    (h : TriesWithinLimit s) (hown : TriesHeld s → s.executing = none → TriesHeld (own s))
    (ht : rule (takeRequest n seq own) s = .next t) : TriesWithinLimit t :=
  triesWithinLimit_rule h (fun hs => hs.takeRequest (hown hs)) ht

theorem exec_keeps_triesWithinLimit (c : Instr) {s t : State} (h : TriesWithinLimit s)
    (ht : exec c s = .next t) : TriesWithinLimit t := by
  cases c with
  | jobOpener m => exact triesWithinLimit_rule h (KeepsTries.of_takeOpener m s).held ht
  | sectorIn m => exact triesWithinLimit_closingRule h (KeepsTries.of_arriveData (.sector m) s).held ht
  | handOver p => exact triesWithinLimit_rule h (KeepsTries.of_handOver p s).held ht
  | pipeCompletion p => exact triesWithinLimit_closingRule h (KeepsTries.of_completePass p s).held ht
  | sectorOut i => exact triesWithinLimit_closingRule h (KeepsTries.of_acceptSector i s).held ht
  | identify r => exact triesWithinLimit_request h (fun hs _ => (KeepsTries.of_identify r s).held hs) ht
  | setNamespace r => exact triesWithinLimit_request h (fun hs hi => hs.setNamespace hi r) ht
  | defineExtent r => exact triesWithinLimit_request h (fun hs hi => hs.defineExtent hi r) ht
  | retireExtent r => exact triesWithinLimit_request h (fun hs hi => hs.retireExtent hi r) ht
  | setPolicy r => exact triesWithinLimit_request h (fun hs hi => hs.setPolicy hi r) ht
  | queryExtent r => exact triesWithinLimit_request h (fun hs _ => (KeepsTries.of_queryExtent r s).held hs) ht
  | querySlot r => exact triesWithinLimit_request h (fun hs _ => (KeepsTries.of_querySlot r s).held hs) ht
  | unlock r => exact triesWithinLimit_request h (fun hs _ => hs.unlock r) ht
  | lock r => exact triesWithinLimit_request h (fun hs _ => (KeepsTries.of_lock r s).held hs) ht
  | rewrap r => exact triesWithinLimit_request h (fun hs _ => hs.rewrap r) ht
  | erase r => exact triesWithinLimit_request h (fun hs hi => hs.erase hi r) ht
  | generate r => exact triesWithinLimit_request h (fun hs _ => (KeepsTries.of_generate r s).held hs) ht
  | setLink r => exact triesWithinLimit_request h (fun hs _ => (KeepsTries.of_setLink r s).held hs) ht
  | setTick r => exact triesWithinLimit_request h (fun hs _ => (KeepsTries.of_setTick r s).held hs) ht
  | readEvents r => exact triesWithinLimit_request h (fun hs _ => (KeepsTries.of_readEvents r s).held hs) ht
  | clearEvents r => exact triesWithinLimit_request h (fun hs _ => (KeepsTries.of_clearEvents r s).held hs) ht
  | setEventEnables r =>
    exact triesWithinLimit_request h (fun hs _ => (KeepsTries.of_setEventEnables r s).held hs) ht
  | unknownRequest code seq => exact triesWithinLimit_rule h (fun hs => hs.of_same rfl rfl) ht
  | unknownMessageType channel m =>
    cases channel with
    | control => exact triesWithinLimit_rule h (fun hs => hs.of_same rfl rfl) ht
    | data => exact triesWithinLimit_rule h (KeepsTries.of_arriveData .unknown s).held ht
  | readRecordEnd rest => exact triesWithinLimit_rule h (fun hs => hs.endRead rest) ht
  | writeRecordEnd => exact triesWithinLimit_rule h TriesHeld.endWrite ht
  | addressNotAcknowledged => exact triesWithinLimit_rule h TriesHeld.addressNacked ht
  | pollWaitEnd => exact triesWithinLimit_rule h TriesHeld.endPollWait ht
  | nackData b => exact triesWithinLimit_rule h (fun hs => hs.dataNacked b) ht
  | stretchTimeout p => exact triesWithinLimit_closingRule h (fun hs => hs.stretchOut p) ht
  | collision p rest => exact triesWithinLimit_closingRule h (fun hs => hs.meetCollision p rest) ht
  | freeWaitExpiry => exact triesWithinLimit_rule h TriesHeld.freeWaitEnds ht
  | otherMasterStart => exact triesWithinLimit_rule h (fun hs => hs.track ..) ht
  | stopObserved => exact triesWithinLimit_rule h (KeepsTries.of_linkFree s).held ht
  | releaseWatchQuiet => exact triesWithinLimit_rule h TriesHeld.quiet ht
  | tick =>
    have htick : KeepsTries s (reachPeriod s) := (KeepsTries.of_countPeriod _).after_same rfl rfl
    exact triesWithinLimit_rule h htick.held ht
  | idleExpiry e => exact triesWithinLimit_rule h (KeepsTries.of_expire e s).held ht
  | randomSample => exact triesWithinLimit_rule h (KeepsTries.of_takeSample s).held ht
  | warmUpEnd => exact triesWithinLimit_rule h (KeepsTries.of_endWarmUp s).held ht
  | repetitionTestFailure => exact triesWithinLimit_rule h (KeepsTries.of_failRepetition s).held ht
  | coldStart l =>
    cases ht
    exact triesWithinLimit_raiseLine l h
  | selfCheckEnd p passed => exact triesWithinLimit_closingRule h (fun hs => hs.endCheck p passed) ht
  | powerGoodFalling l =>
    cases ht
    exact triesWithinLimit_dropLine l h
  | holdRises =>
    cases ht
    exact triesWithinLimit_raiseHold h
  | holdFalls =>
    cases ht
    exact triesWithinLimit_dropHold h
  | drainTimerExpiry => exact triesWithinLimit_closingRule h TriesHeld.expireDrain ht
  | abandonedStopCompletes => exact triesWithinLimit_closingRule h TriesHeld.abandonedStop ht

/-- Settles O58: most rules keep every extent's tries and try no new credential; those that write tries write them
within the limit, an UNLOCK or REWRAP counting against the extent that was not barred when it began. -/
theorem stepKeepsTries : Obligations.StepKeepsTries := by
  unfold Obligations.StepKeepsTries
  intro s t h ht
  rcases hq : s.pending with _ | ⟨c, rest⟩
  · rw [step_of_empty hq] at ht
    cases ht
    have hkept := KeepsTries.of_timePasses s
    rw [triesWithinLimit_iff] at *
    intro hp
    cases hps : s.powered with
    | true => exact hkept.held (h hps)
    | false =>
      have hinert : timePasses s = s := by simp [timePasses, hps]
      simp [hinert, hps] at hp
  · rw [step_of_pending hq] at ht
    exact exec_keeps_triesWithinLimit c (s := { s with pending := rest }) h ht

end Sys2Proof.Machine
end

section
/-! PROOFS. The five requests of the Extent Table and QUERY SLOT (O28 to O32): each check as what it asks of the tables,
and the request's own rule as what it writes when no check applies. -/

namespace Sys2Proof.Machine

/-! ## SET NAMESPACE (R41, R42) -/

section
variable {r : Request} {a : NamespaceArgs} {s : State}

theorem exec_setNamespace (r : Request) (h : Accepts s) : exec (.setNamespace r) s = .next (setNamespace r s) :=
  rule_takeRequest_of_accepts _ _ _ h

theorem setNamespace_of_refused {c : ResultCode} (ha : namespaceArgs? r = some a)
    (h : namespaceRefusal a s = some c) : setNamespace r s = sent (answerTo .setNamespace r c []) s := by
  simp only [setNamespace, ha, h]
  rfl

theorem setNamespace_of_taken (ha : namespaceArgs? r = some a) (h : namespaceRefusal a s = none) :
    setNamespace r s =
      sent (answerTo .setNamespace r .ok (handleItems (globalOf a.ns) (applyNamespace a s)))
        (applyNamespace a s) := by
  simp only [setNamespace, ha, h]
  rfl

/-- A job or a defined extent of the namespace exists (checks 2 and 3 of R41). -/
def namespaceBusy (n : NamespaceId) (s : State) : Prop :=
  (∃ (t : TagId) (j : Job), s.jobs[t] = some j ∧ j.ns = n) ∨
    ∃ (e : ExtentId) (x : Extent), 4 ≤ e.val ∧ s.extents[e] = some x ∧ x.ns = n

theorem namespaceRefusal_of_busy (h : namespaceBusy a.ns s) : namespaceRefusal a s = some .nsBusy := by
  unfold namespaceBusy at h
  rw [← jobOfNamespace_iff, ← definedInNamespace_iff] at h
  unfold namespaceRefusal
  rcases h with h | h
  · rw [if_pos h]
  · rw [if_pos h, ite_self]

theorem namespaceRefusal_of_idle (h : ¬namespaceBusy a.ns s) :
    namespaceRefusal a s =
      if a.size = 0 ∧ liveExtent (globalOf a.ns) s = true then some .keyPresent else none := by
  unfold namespaceBusy at h
  rw [← jobOfNamespace_iff, ← definedInNamespace_iff, not_or] at h
  obtain ⟨hjob, hdefined⟩ := h
  rw [namespaceRefusal, if_neg hjob, if_neg hdefined]

/-- The global extent begins, becomes FREE, or stays with its handle replaced while it has no key. -/
theorem globalAfter_eq (a : NamespaceArgs) (s : State) :
    globalAfter a s =
      if a.size = 0 then none
      else if s.namespaces[a.ns].size = 0 then some (newExtent a.ns none a.handle Policy.default)
      else s.extents[globalOf a.ns].map fun x => if x.key = .none then { x with handle := a.handle } else x := by
  unfold globalAfter
  cases s.extents[globalOf a.ns] <;> rfl

theorem applyNamespace_eq (a : NamespaceArgs) (s : State) :
    applyNamespace a s =
      { s with
        namespaces := s.namespaces.set a.ns { size := a.size, sectorSize := a.sectorSize }
        extents := s.extents.set (globalOf a.ns) (globalAfter a s)
        timers :=
          if s.namespaces[a.ns].size = 0 ∨ a.size = 0 then s.timers.set (globalOf a.ns) .disarmed
          else s.timers } := by
  unfold applyNamespace
  simp only
  split <;> rfl

theorem handleItems_applyNamespace (a : NamespaceArgs) (s : State) :
    handleItems (globalOf a.ns) (applyNamespace a s) =
      match globalAfter a s with
      | some x => [itemN 0x04 1 x.handle.val]
      | none => [] := by
  have hwritten : (applyNamespace a s).extents[globalOf a.ns] = globalAfter a s := by
    rw [applyNamespace_eq]
    simp
  cases h : globalAfter a s with
  | none => simp only [handleItems, hwritten, h]
  | some x => simp only [handleItems, hwritten, h]

end

/-- Settles O28: the two tests for NS_BUSY are one condition, and the key decides only where the namespace goes. -/
theorem setNamespaceByItsTables : Obligations.SetNamespaceByItsTables := by
  unfold Obligations.SetNamespaceByItsTables
  intro r a s hs ha g busy live after
  have hafter : globalAfter a s = after := globalAfter_eq a s
  have hlive : liveExtent g s = true ↔ live := liveExtent_iff g s
  refine ⟨rfl, fun hbusy => ?_, fun hidle hsize hl => ?_, fun hidle hfree => ?_⟩
  · rw [exec_setNamespace r hs, setNamespace_of_refused ha (namespaceRefusal_of_busy hbusy)]
  · have hrefused : namespaceRefusal a s = some .keyPresent :=
      (namespaceRefusal_of_idle hidle).trans (if_pos ⟨hsize, hlive.2 hl⟩)
    rw [exec_setNamespace r hs, setNamespace_of_refused ha hrefused]
  · have htaken : namespaceRefusal a s = none :=
      (namespaceRefusal_of_idle hidle).trans (if_neg fun ⟨hsize, hl⟩ => hfree ⟨hsize, hlive.1 hl⟩)
    rw [exec_setNamespace r hs, setNamespace_of_taken ha htaken, handleItems_applyNamespace, applyNamespace_eq,
      hafter] <;> rfl

/-! ## DEFINE EXTENT (R51, R52) -/

section
variable {r : Request} {a : DefineArgs} {s : State}

theorem exec_defineExtent_of_refused {c : ResultCode} (hs : Accepts s) (ha : defineArgs? r = some a)
    (h : defineRefusal a s = some c) :
    exec (.defineExtent r) s = .next (sent (answerTo .defineExtent r c []) s) := by
  refine (rule_takeRequest_of_accepts _ _ _ hs).trans ?_
  simp only [defineExtent, ha, h]
  rfl

theorem exec_defineExtent_of_taken (hs : Accepts s) (ha : defineArgs? r = some a)
    (h : defineRefusal a s = none) :
    exec (.defineExtent r) s = .next (sent (answerTo .defineExtent r .ok []) (applyDefine a s)) := by
  refine (rule_takeRequest_of_accepts _ _ _ hs).trans ?_
  simp only [defineExtent, ha, h]
  rfl

theorem defineRefusal_of_global (h : a.extent.val < 4) : defineRefusal a s = some .fixed := if_pos h

/-- A record from 4 on is judged by its own state, and a FREE one by the tables. -/
theorem defineRefusal_of_defined (h4 : 4 ≤ a.extent.val) (h : s.extents[a.extent].isSome = true) :
    defineRefusal a s = some .inUse := by
  rw [defineRefusal, if_neg (Nat.not_lt.2 h4), if_pos h]

theorem defineRefusal_of_free (h4 : 4 ≤ a.extent.val) (h : s.extents[a.extent] = none) :
    defineRefusal a s =
      if s.namespaces[a.ns].size = 0 then some .noNamespace
      else if a.last < a.first ∨ s.namespaces[a.ns].size ≤ a.last then some .range
      else if overlaps a.ns a.first a.last s then some .overlap
      else if jobInSpan a.ns a.first a.last s then some .extentBusy
      else none := by
  have hfree : ¬s.extents[a.extent].isSome = true := by simp [h]
  rw [defineRefusal, if_neg (Nat.not_lt.2 h4), if_neg hfree]

/-- A FREE record and a span within the namespace: the defined extents and the jobs decide. -/
theorem defineRefusal_of_inRange (h4 : 4 ≤ a.extent.val) (h : s.extents[a.extent] = none)
    (hr : a.first ≤ a.last ∧ a.last < s.namespaces[a.ns].size) :
    defineRefusal a s =
      if overlaps a.ns a.first a.last s then some .overlap
      else if jobInSpan a.ns a.first a.last s then some .extentBusy
      else none := by
  rw [defineRefusal_of_free h4 h, if_neg (by omega), if_neg (by omega)]

end

/-- Settles O29: each check is met in a state that the checks before it pass. -/
theorem defineExtentByItsTable : Obligations.DefineExtentByItsTable := by
  unfold Obligations.DefineExtentByItsTable
  intro r a s hs ha refusedWith inRange overlap job
  have hrefused : ∀ c, defineRefusal a s = some c → refusedWith c := fun c =>
    exec_defineExtent_of_refused hs ha
  have hoverlap : overlaps a.ns a.first a.last s = true ↔ overlap := overlaps_iff ..
  have hjob : jobInSpan a.ns a.first a.last s = true ↔ job := jobInSpan_iff ..
  refine ⟨fun h => ?_, fun h4 hx => ?_, fun h4 hx h0 => ?_, fun h4 hx h0 hr => ?_, fun h4 hx hr ho => ?_,
    fun h4 hx hr ho hj => ?_, fun h4 hx hr ho hj => ?_⟩
  · exact hrefused _ (defineRefusal_of_global h)
  · exact hrefused _ (defineRefusal_of_defined h4 hx)
  · refine hrefused _ ?_
    rw [defineRefusal_of_free h4 hx, if_pos h0]
  · refine hrefused _ ?_
    have hout : a.last < a.first ∨ s.namespaces[a.ns].size ≤ a.last := by
      rwa [not_and_or, Nat.not_le, Nat.not_lt] at hr
    rw [defineRefusal_of_free h4 hx, if_neg h0, if_pos hout]
  · refine hrefused _ ?_
    rw [defineRefusal_of_inRange h4 hx hr, if_pos (hoverlap.2 ho)]
  · refine hrefused _ ?_
    rw [defineRefusal_of_inRange h4 hx hr, if_neg (mt hoverlap.1 ho), if_pos (hjob.2 hj)]
  · have htaken : defineRefusal a s = none := by
      rw [defineRefusal_of_inRange h4 hx hr, if_neg (mt hoverlap.1 ho), if_neg (mt hjob.1 hj)]
    rw [exec_defineExtent_of_taken hs ha htaken]
    rfl

/-! ## RETIRE EXTENT (R53, R54) -/

section
variable {r : Request} {e : ExtentId} {s : State}

theorem exec_retireExtent_of_refused {c : ResultCode} (hs : Accepts s) (he : extentOnly? r = some e)
    (h : retireRefusal e s = some c) :
    exec (.retireExtent r) s = .next (sent (answerTo .retireExtent r c []) s) := by
  refine (rule_takeRequest_of_accepts _ _ _ hs).trans ?_
  simp only [retireExtent, he, h]
  rfl

theorem exec_retireExtent_of_taken (hs : Accepts s) (he : extentOnly? r = some e)
    (h : retireRefusal e s = none) :
    exec (.retireExtent r) s =
      .next (sent (answerTo .retireExtent r .ok [])
        { s with extents := s.extents.set e none, timers := s.timers.set e .disarmed }) := by
  refine (rule_takeRequest_of_accepts _ _ _ hs).trans ?_
  simp only [retireExtent, he, h]
  rfl

/-- A job names the extent, or shares an LBA with its span. -/
theorem extentInUse_iff (e : ExtentId) (x : Extent) (s : State) :
    extentInUse e x s = true ↔
      ∃ (t : TagId) (j : Job), s.jobs[t] = some j ∧
        (j.extent = e ∨ ∃ p, x.span = some p ∧ j.ns = x.ns ∧ j.firstLba ≤ p.last ∧
          p.first ≤ j.firstLba + j.count - 1) := by
  unfold extentInUse
  rw [Bool.or_eq_true, decide_eq_true_iff, jobsNaming_pos]
  rcases x.span with _ | p
  · simp
  · simp only [jobInSpan_iff, Option.some.injEq, exists_eq_left']
    constructor
    · rintro (⟨t, j, hj, he⟩ | ⟨t, j, hj, hmeets⟩)
      · exact ⟨t, j, hj, .inl he⟩
      · exact ⟨t, j, hj, .inr hmeets⟩
    · rintro ⟨t, j, hj, he | hmeets⟩
      · exact .inl ⟨t, j, hj, he⟩
      · exact .inr ⟨t, j, hj, hmeets⟩

theorem retireRefusal_of_defined {x : Extent} (h4 : 4 ≤ e.val) (hx : s.extents[e] = some x) :
    retireRefusal e s =
      if x.key.isLive then some .keyPresent else if extentInUse e x s then some .extentBusy else none := by
  simp only [retireRefusal, if_neg (Nat.not_lt.2 h4), hx]

end

/-- Settles O30: a global record is refused before its state is looked at, and of a DEFINED one first its key counts and
then its jobs. -/
theorem retireExtentByItsTable : Obligations.RetireExtentByItsTable := by
  unfold Obligations.RetireExtentByItsTable
  intro r e s hs he refusedWith
  have hrefused : ∀ c, retireRefusal e s = some c → refusedWith c := fun c =>
    exec_retireExtent_of_refused hs he
  refine ⟨fun h => hrefused _ (if_pos h), fun h4 hx => ?_, fun x h4 hx => ?_⟩
  · refine hrefused _ ?_
    simp only [retireRefusal, if_neg (Nat.not_lt.2 h4), hx]
  · intro busy
    have hbusy : extentInUse e x s = true ↔ busy := extentInUse_iff e x s
    have hrefusal := retireRefusal_of_defined h4 hx
    refine ⟨fun hk => ?_, fun hk hb => ?_, fun hk hb => ?_⟩
    · exact hrefused _ (hrefusal.trans (if_pos hk))
    · rw [if_neg (by simp [hk]), if_pos (hbusy.2 hb)] at hrefusal
      exact hrefused _ hrefusal
    · rw [if_neg (by simp [hk]), if_neg (mt hbusy.1 hb)] at hrefusal
      exact exec_retireExtent_of_taken hs he hrefusal

/-! ## SET POLICY (R55, R56, R71) -/

section
variable {r : Request} {a : PolicyArgs} {x : Extent} {s : State}

theorem exec_setPolicy_of_refused {c : ResultCode} (hs : Accepts s) (ha : policyArgs? r = some a)
    (h : policyRefusal a s = some c) :
    exec (.setPolicy r) s = .next (sent (answerTo .setPolicy r c []) s) := by
  refine (rule_takeRequest_of_accepts _ _ _ hs).trans ?_
  simp only [setPolicy, ha, h]
  rfl

theorem exec_setPolicy_of_taken (hs : Accepts s) (ha : policyArgs? r = some a)
    (hx : s.extents[a.extent] = some x) (h : policyRefusal a s = none) :
    exec (.setPolicy r) s = .next (sent (answerTo .setPolicy r .ok []) (applyPolicy a x s)) := by
  refine (rule_takeRequest_of_accepts _ _ _ hs).trans ?_
  simp only [setPolicy, ha, h, hx]
  rfl

/-- A carried try limit on a DEFINED extent. -/
theorem policyRefusal_of_limit {n : Nat} (hx : s.extents[a.extent] = some x) (hn : a.policy.tryLimit = some n) :
    policyRefusal a s =
      if x.barred then some .barred else if n ≤ x.tryCount then some .limitBelowCount else none := by
  simp only [policyRefusal, hx, hn]

/-- The part with the carried fields in an extent's record, and its timer judged anew (R56). -/
def policyWritten (a : PolicyArgs) (x : Extent) (s : State) : State :=
  { s with
    extents := s.extents.set a.extent (some { x with policy := x.policy.carry a.policy })
    timers := s.timers.set a.extent
      (freshTimer { x with policy := x.policy.carry a.policy } (jobsNaming a.extent s)) }

theorem judgeTimer_policyWritten (a : PolicyArgs) (x : Extent) (s : State) :
    judgeTimer true a.extent
        (setExtent a.extent (some { x with policy := x.policy.carry a.policy }) s) = policyWritten a x s := by
  rw [judgeTimer_restart (x := { x with policy := x.policy.carry a.policy }) (by simp),
    jobsNaming_of_jobs (setExtent_jobs ..)]
  rfl

/-- The carried limits that make a slot worn: a nonzero one at or below its counter (R71). -/
def wearsSlot (u : PolicyUpdate) (v : Slot) : Prop :=
  u.usageLimit.isSome = true ∧ u.usageLimit.getD v.limit ≠ 0 ∧ u.usageLimit.getD v.limit ≤ v.usage ∧
    v.worn = false

theorem policyToSlot_of_fresh {u : PolicyUpdate} {k : SlotId} (h : ¬wearsSlot u s.slots[k]) :
    policyToSlot u k s =
      setSlot k
        { s.slots[k] with
          limit := u.usageLimit.getD s.slots[k].limit
          stopAtLimit := u.stopAtLimit.getD s.slots[k].stopAtLimit } s :=
  if_neg h

theorem policyToSlot_of_worn {u : PolicyUpdate} {k : SlotId} (h : wearsSlot u s.slots[k]) :
    policyToSlot u k s =
      setFlag .keyWorn
        (setSlot k
          { s.slots[k] with
            limit := u.usageLimit.getD s.slots[k].limit
            stopAtLimit := u.stopAtLimit.getD s.slots[k].stopAtLimit, worn := true } s) :=
  if_pos h

/-- An extent without a slot takes its policy alone. -/
theorem applyPolicy_of_notLive (a : PolicyArgs) (s : State) (h : x.key.isLive = false) :
    applyPolicy a x s = policyWritten a x s := by
  simp only [applyPolicy, judgeTimer_policyWritten]
  split
  · next k hk => simp [hk, KeyStatus.isLive] at h
  · rfl

theorem applyPolicy_of_live {k : SlotId} (a : PolicyArgs) (s : State) (h : x.key = .live k) :
    applyPolicy a x s = policyToSlot a.policy k (policyWritten a x s) := by
  simp only [applyPolicy, judgeTimer_policyWritten]
  split
  · next k' hk =>
    cases hk.symm.trans h
    rfl
  · next hk => exact absurd h (hk k)

end

/-- Settles O31: the checks concern a carried try limit, and the slot of a LIVE extent follows its policy. -/
theorem setPolicyByItsTables : Obligations.SetPolicyByItsTables := by
  unfold Obligations.SetPolicyByItsTables
  intro r a s hs ha refusedWith e u
  have hrefused : ∀ c, policyRefusal a s = some c → refusedWith c := fun c =>
    exec_setPolicy_of_refused hs ha
  refine ⟨fun hx => ?_, fun x hx => ?_⟩
  · refine hrefused _ ?_
    unfold policyRefusal
    rw [hx]
  intro y written
  refine ⟨fun hu hb => ?_, fun n hn hb hle => ?_, fun hpass => ?_⟩
  · obtain ⟨n, hn⟩ := Option.isSome_iff_exists.1 hu
    refine hrefused _ ?_
    rw [policyRefusal_of_limit hx hn, if_pos hb]
  · refine hrefused _ ?_
    rw [policyRefusal_of_limit hx hn, if_neg (by simp [hb]), if_pos hle]
  · have htaken := exec_setPolicy_of_taken hs ha hx ((policyRefusal_eq_none hx).2 hpass)
    refine ⟨fun hk => ?_, fun k hk => ?_⟩
    · rw [htaken, applyPolicy_of_notLive a s hk]
      rfl
    · intro v limit stop worn
      rw [htaken, applyPolicy_of_live a s hk]
      refine ⟨fun hw => ?_, fun hw => ?_⟩
      · rw [policyToSlot_of_fresh (s := policyWritten a x s) hw]
        rfl
      · rw [policyToSlot_of_worn (s := policyWritten a x s) hw]
        rfl

/-! ## QUERY EXTENT and QUERY SLOT (R57, R73) -/

/-- The items of an extent with those of its policy in their places (12.2). -/
theorem extentItems_eq (e : ExtentId) (x : Extent) (s : State) :
    extentItems e x s =
      [itemN 0x01 1 x.ns.val]
        ++ (if x.span.isNone then [itemN 0x02 6 s.namespaces[x.ns].size] else [])
        ++ [itemN 0x04 1 x.handle.val]
        ++ (match x.span with
            | some p => [itemN 0x05 5 p.first, itemN 0x06 5 p.last]
            | none => [])
        ++ (x.policy.items ++ [item1 0x50 0x01, item1 0x51 x.key.code])
        ++ (match x.key with
            | .live k => [itemN 0x52 1 k.val]
            | _ => [])
        ++ [item1 0x53 (boolCode x.readLock), item1 0x54 (boolCode x.writeLock),
            item1 0x55 (boolCode x.barred), itemN 0x56 1 x.tryCount,
            item1 0x57 (boolCode x.storeStale), itemN 0x58 1 (jobsNaming e s)]
        ++ (match s.timers[e] with
            | .counting n => [itemN 0x59 3 n]
            | _ => []) := by
  unfold extentItems
  cases x.span <;> simp only [Option.isNone, if_true, Bool.false_eq_true, if_false, List.append_assoc] <;> rfl

/-- Settles O32: a query answers with the items of the record it names, which the record's own fields decide. -/
theorem queriesReport : Obligations.QueriesReport := by
  unfold Obligations.QueriesReport
  intro r s hs
  refine ⟨fun e he hx => ?_, fun e x he hx => ?_, fun k hk => ?_⟩
  · refine (rule_takeRequest_of_accepts _ _ _ hs).trans ?_
    simp only [queryExtent, he, hx]
    rfl
  · refine (rule_takeRequest_of_accepts _ _ _ hs).trans ?_
    simp only [queryExtent, he, hx, extentItems_eq]
    rfl
  · intro v key bound
    refine (rule_takeRequest_of_accepts _ _ _ hs).trans ?_
    have hkey : keyItems v.state =
        match key with
        | some key => [item1 0x26 key.size.code, item1 0x27 key.mode.code]
        | none => [] := by
      simp only [key]
      cases v.state <;> rfl
    have hbound : boundItems v.state =
        match bound with
        | some e => [itemN 0x5B 1 e.val]
        | none => [] := by
      simp only [bound]
      cases v.state <;> rfl
    simp only [querySlot, hk]
    rw [slotRecordItems, hkey, hbound]
    rfl

end Sys2Proof.Machine
end

section
/-! PROOFS. How UNLOCK, LOCK and REWRAP are taken (O33 to O35): each check as what it asks of the extent and of the
part, and what the request writes when no check applies. -/

namespace Sys2Proof.Machine

/-! ## UNLOCK (R94) -/

section
variable {r : Request} {a : UnlockArgs} {x : Extent} {s : State}

theorem exec_unlock_of_free (hs : Accepts s) (ha : unlockArgs? r = some a) (hx : s.extents[a.extent] = none) :
    exec (.unlock r) s = .next (sent (answerTo .unlock r .noExtent []) s) := by
  refine (rule_takeRequest_of_accepts _ _ _ hs).trans ?_
  simp only [unlock, ha, hx]
  rfl

theorem exec_unlock_of_refused {c : ResultCode} (hs : Accepts s) (ha : unlockArgs? r = some a)
    (hx : s.extents[a.extent] = some x) (h : unlockRefusal x s = some c) :
    exec (.unlock r) s = .next (sent (answerTo .unlock r c []) s) := by
  refine (rule_takeRequest_of_accepts _ _ _ hs).trans ?_
  simp only [unlock, ha, hx, h]
  rfl

theorem exec_unlock_of_taken (hs : Accepts s) (ha : unlockArgs? r = some a)
    (hx : s.extents[a.extent] = some x) (h : unlockRefusal x s = none) :
    exec (.unlock r) s = .next (beginUnlock r.seq a x s) := by
  refine (rule_takeRequest_of_accepts _ _ _ hs).trans ?_
  simp only [unlock, ha, hx, h]

theorem unlockRefusal_of_barred (s : State) (hb : x.barred = true) : unlockRefusal x s = some .barred :=
  if_pos hb

/-- An extent that is not barred is judged by its key status, and one without a key by the slots too. -/
theorem unlockRefusal_of_unbarred (s : State) (hb : x.barred = false) :
    unlockRefusal x s =
      match x.key with
      | .erased => some .keyErased
      | .none => if (emptySlot? s).isNone then some .noSlot else none
      | .live _ => none :=
  if_neg (by simp [hb])

/-- UNLOCK begins with the slot it allocates, if any, its credential and its READ RECORD. -/
theorem beginUnlock_eq (seq : Byte) (a : UnlockArgs) (x : Extent) (s : State) :
    beginUnlock seq a x s =
      { allocateIf (unlockSlot x s) a.extent s with
        executing := some { seq := seq, request := .unlock a.extent a.dirs (unlockSlot x s) }
        context := { WorkingContext.empty with credential := some a.credential }
        link := askedRead x.handle s.link } := by
  have hlink : (allocateIf (unlockSlot x s) a.extent s).link = s.link := by
    cases unlockSlot x s <;> rfl
  rw [beginUnlock, startRead_eq, setContext_link, setExecuting_link, hlink]
  rfl

end

/-- Settles O33: the key status of an extent that is not barred decides what is checked, and whether a slot is
allocated. -/
theorem unlockBegins : Obligations.UnlockBegins := by
  unfold Obligations.UnlockBegins
  intro r a s hs ha refusedWith begun
  refine ⟨exec_unlock_of_free hs ha, fun x hx => ?_⟩
  have hrefused : ∀ c, unlockRefusal x s = some c → refusedWith c := fun c =>
    exec_unlock_of_refused hs ha hx
  refine ⟨fun hb => ?_, fun hb hk => ?_, fun hb hk hfull => ?_, fun k hb hk hempty hlowest => ?_,
    fun k hb hk => ?_⟩
  · exact hrefused _ (unlockRefusal_of_barred s hb)
  · refine hrefused _ ?_
    rw [unlockRefusal_of_unbarred s hb, hk]
  · refine hrefused _ ?_
    rw [unlockRefusal_of_unbarred s hb, hk, emptySlot?_none.2 hfull]
    rfl
  · have hfound : emptySlot? s = some k := emptySlot?_lowest hempty hlowest
    have htaken : unlockRefusal x s = none := by
      rw [unlockRefusal_of_unbarred s hb, hk, hfound]
      rfl
    have hslot : unlockSlot x s = some k := by simp only [unlockSlot, hk, hfound]
    rw [exec_unlock_of_taken hs ha hx htaken, beginUnlock_eq, hslot]
    rfl
  · have htaken : unlockRefusal x s = none := by rw [unlockRefusal_of_unbarred s hb, hk]
    have hslot : unlockSlot x s = none := by simp only [unlockSlot, hk]
    rw [exec_unlock_of_taken hs ha hx htaken, beginUnlock_eq, hslot]
    rfl

/-! ## LOCK (R100, R101) -/

section
variable {r : Request} {a : LockArgs} {e : ExtentId} {x : Extent} {s : State}

theorem exec_lock_of_free (hs : Accepts s) (ha : lockArgs? r = some a) (hx : s.extents[a.extent] = none) :
    exec (.lock r) s = .next (sent (answerTo .lock r .noExtent []) s) := by
  refine (rule_takeRequest_of_accepts _ _ _ hs).trans ?_
  simp only [lock, ha, hx]
  rfl

theorem exec_lock_of_defined (hs : Accepts s) (ha : lockArgs? r = some a) (hx : s.extents[a.extent] = some x) :
    exec (.lock r) s = .next (carryOutLock r.seq a s) := by
  refine (rule_takeRequest_of_accepts _ _ _ hs).trans ?_
  simp only [lock, ha, hx]

/-- A cut releases pins of a READY slot and leaves its state. -/
theorem cutJobs_ready {named : Job → Bool} (hnamed : ignoresReceipt named) (r : CutReason) {k : SlotId}
    {key : LoadedKey} (h : s.slots[k].state = .ready e key) :
    (cutJobs named r s).slots[k].state = .ready e key := by
  have hnot : ∀ key', s.slots[k].state ≠ .draining key' := fun key' => by
    rw [h]
    simp
  rw [cutJobs_eq_foldl, cutTurns_slot hnamed (List.nodup_finRange 48),
    unpinnedSlot_iterate_of_notDraining _ hnot, h]

/-- The cut of a LOCK keeps the extents' records and the slots that are bound to LIVE extents (R62). -/
theorem lockCut_keeps (a : LockArgs) (e : ExtentId) (x : Extent) (s : State) :
    (cutIf a.cut (lockNames a) .cutLock s).extents = s.extents ∧
      (boundSlot e x s → boundSlot e x (cutIf a.cut (lockNames a) .cutLock s)) := by
  unfold cutIf
  split
  · refine ⟨(JobFrame.of_cutJobs (lockNames a) .cutLock s).extents, fun hbound k hk => ?_⟩
    obtain ⟨key, hready⟩ := hbound k hk
    exact ⟨key, cutJobs_ready (fun _ _ => rfl) .cutLock hready⟩
  · exact ⟨rfl, id⟩

/-- An extent as a LOCK leaves it: the named locks set, and without its key where the release takes it. -/
def lockedExtent (a : LockArgs) (x : Extent) : Extent :=
  { x.locked a.dirs with key := if a.forget = true ∧ x.key.isLive = true then .none else x.key }

/-- The part after the locks and the release of a LOCK (R101, steps 2 and 3). -/
def lockWritten (a : LockArgs) (x : Extent) (s : State) : State :=
  { s with
    extents := s.extents.set a.extent (some (lockedExtent a x))
    slots := if a.forget then releasedSlots x s else s.slots }

theorem releaseIf_locked (a : LockArgs) (hx : s.extents[a.extent] = some x) :
    releaseIf a.forget a.extent (updateExtent a.extent (Extent.locked a.dirs) s) = lockWritten a x s := by
  rw [updateExtent_of_defined _ hx]
  unfold lockWritten lockedExtent
  cases a.forget with
  | false => rfl
  | true =>
    have hlocked : (setExtent a.extent (some (x.locked a.dirs)) s).extents[a.extent] =
        some (x.locked a.dirs) := by simp
    show releaseExtent .forget a.extent _ = _
    rw [releaseExtent_changes, releaseExtent_extents .forget hlocked, releaseExtent_slots .forget hlocked]
    simp only [setExtent_extents, Vector.set_set, true_and]
    rfl

/-- The slot of a LIVE extent is READY and is emptied, or left DRAINING while it has pins. -/
theorem releasedSlots_of_ready {k : SlotId} {key : LoadedKey} (hk : x.key = .live k)
    (h : s.slots[k].state = .ready e key) :
    releasedSlots x s =
      s.slots.set k
        (if s.slots[k].pins = 0 then Slot.empty else { s.slots[k] with state := .draining key }) := by
  simp only [releasedSlots, hk, h]
  rfl

/-- The slot that the release leaves DRAINING is the LIVE one, if it is pinned. -/
theorem leftDraining_of_released {t : State} {y : Extent} (hx : s.extents[e] = some y) (hy : y.key = x.key)
    (hbound : boundSlot e x s) (ht : t.slots = releasedSlots x s) : leftDraining e s t = drainingSlot x s := by
  unfold leftDraining drainingSlot
  rw [hx, Option.map_some, hy, ht]
  cases hk : x.key with
  | none => rfl
  | erased => rfl
  | live k =>
    obtain ⟨key, hready⟩ := hbound k hk
    simp only [releasedSlots_of_ready hk hready, Fin.getElem_fin, Vector.getElem_set_self]
    by_cases h0 : s.slots[k.val].pins = 0
    · simp [h0, Slot.empty]
    · simp [h0]

/-- The part that a LOCK leaves, with its timer judged (R101, step 4). -/
def lockDone (a : LockArgs) (x : Extent) (s : State) : State :=
  setTimer a.extent (keptTimer (lockedExtent a x) (jobsNaming a.extent s) s.timers[a.extent]) (lockWritten a x s)

theorem lockWritten_extent (a : LockArgs) (x : Extent) (s : State) :
    (lockWritten a x s).extents[a.extent] = some (lockedExtent a x) := by
  simp [lockWritten]

theorem judgeTimer_lockWritten (a : LockArgs) (x : Extent) (s : State) :
    judgeTimer false a.extent (lockWritten a x s) = lockDone a x s := by
  rw [judgeTimer_keep (lockWritten_extent a x s)]
  rfl

/-- With forget, the slot of the answer is the one that the release leaves DRAINING. -/
theorem leftDraining_lockDone (a : LockArgs) (hx : s.extents[a.extent] = some x)
    (hbound : boundSlot a.extent x s) (hf : a.forget = true) :
    leftDraining a.extent (updateExtent a.extent (Extent.locked a.dirs) s) (lockDone a x s) =
      drainingSlot x s := by
  have hlocked : (updateExtent a.extent (Extent.locked a.dirs) s).extents[a.extent] =
      some (x.locked a.dirs) := by
    rw [updateExtent_of_defined _ hx]
    simp
  have hslots : (lockDone a x s).slots = releasedSlots x s := if_pos hf
  exact leftDraining_of_released (s := updateExtent a.extent (Extent.locked a.dirs) s) hlocked rfl hbound hslots

/-- The steps of LOCK after its cut. -/
theorem carryOutLock_of_cut {u : State} (seq : Byte) (hu : cutIf a.cut (lockNames a) .cutLock s = u)
    (hx : u.extents[a.extent] = some x) (hbound : boundSlot a.extent x u) :
    carryOutLock seq a s =
      answer .lock seq .ok
        ([item1 0x51 (lockedExtent a x).key.code]
          ++ (match a.forget, drainingSlot x u with
              | true, some k => [itemN 0x52 1 k.val]
              | _, _ => [])
          ++ [item1 0x53 (boolCode (lockedExtent a x).readLock),
              item1 0x54 (boolCode (lockedExtent a x).writeLock)])
        (lockDone a x u) := by
  have hrecord : (lockDone a x u).extents[a.extent] = some (lockedExtent a x) := lockWritten_extent a x u
  rw [carryOutLock, hu, releaseIf_locked a hx, judgeTimer_lockWritten]
  simp only [keyStatusItem, lockItems, hrecord, Option.map_some, Option.getD_some]
  cases hf : a.forget with
  | false => rfl
  | true =>
    rw [if_pos rfl, leftDraining_lockDone a hx hbound hf]
    cases drainingSlot x u <;> rfl

end

/-- Settles O34: the cut leaves the extent and the state of its slot, so that locks and release are those of the part
after the cut. -/
theorem lockIsCarriedOut : Obligations.LockIsCarriedOut := by
  unfold Obligations.LockIsCarriedOut
  intro r a s hs ha
  refine ⟨exec_lock_of_free hs ha, ?_⟩
  intro x hx hbound u y
  have hcut : cutIf a.cut (lockNames a) .cutLock s = u := rfl
  obtain ⟨hextents, hkeeps⟩ := lockCut_keeps a a.extent x s
  rw [hcut] at hextents hkeeps
  have hu : u.extents[a.extent] = some x := by rw [hextents, hx]
  rw [exec_lock_of_defined hs ha hx, carryOutLock_of_cut r.seq hcut hu (hkeeps hbound)]
  rfl

/-! ## REWRAP (R103) -/

section
variable {r : Request} {a : RewrapArgs} {x : Extent} {s : State}

theorem exec_rewrap_of_free (hs : Accepts s) (ha : rewrapArgs? r = some a) (hx : s.extents[a.extent] = none) :
    exec (.rewrap r) s = .next (sent (answerTo .rewrap r .noExtent []) s) := by
  refine (rule_takeRequest_of_accepts _ _ _ hs).trans ?_
  simp only [rewrap, ha, hx]
  rfl

theorem exec_rewrap_of_refused {c : ResultCode} (hs : Accepts s) (ha : rewrapArgs? r = some a)
    (hx : s.extents[a.extent] = some x) (h : rewrapRefusal x s = some c) :
    exec (.rewrap r) s = .next (sent (answerTo .rewrap r c []) s) := by
  refine (rule_takeRequest_of_accepts _ _ _ hs).trans ?_
  simp only [rewrap, ha, hx, h]
  rfl

theorem exec_rewrap_of_taken (hs : Accepts s) (ha : rewrapArgs? r = some a)
    (hx : s.extents[a.extent] = some x) (h : rewrapRefusal x s = none) :
    exec (.rewrap r) s = .next (beginRewrap r.seq a x s) := by
  refine (rule_takeRequest_of_accepts _ _ _ hs).trans ?_
  simp only [rewrap, ha, hx, h]

theorem rewrapRefusal_of_unbarred (s : State) (hb : x.barred = false) :
    rewrapRefusal x s =
      if x.key = .erased then some .keyErased
      else if s.random.state ≠ .ready then some .notReady
      else none :=
  if_neg (by simp [hb])

end

/-- Settles O35: each check is met on an extent that the checks before it pass. -/
theorem rewrapBegins : Obligations.RewrapBegins := by
  unfold Obligations.RewrapBegins
  intro r a s hs ha refusedWith
  refine ⟨exec_rewrap_of_free hs ha, fun x hx => ?_⟩
  have hrefused : ∀ c, rewrapRefusal x s = some c → refusedWith c := fun c =>
    exec_rewrap_of_refused hs ha hx
  refine ⟨fun hb => hrefused _ (if_pos hb), fun hb hk => ?_, fun hb hk hr => ?_, fun hb hk hr => ?_⟩
  · exact hrefused _ ((rewrapRefusal_of_unbarred s hb).trans (if_pos hk))
  · refine hrefused _ ?_
    rw [rewrapRefusal_of_unbarred s hb, if_neg hk, if_pos hr]
  · have htaken : rewrapRefusal x s = none := by
      rw [rewrapRefusal_of_unbarred s hb, if_neg hk, if_neg (not_not.2 hr)]
    rw [exec_rewrap_of_taken hs ha hx htaken, beginRewrap, startRead_eq]
    rfl

end Sys2Proof.Machine
end

section
/-! PROOFS. Key records and the ends of the reads that bring them (O38, O40 and O42): how a record is judged, what the
proof of a REWRAP leads to, and how a read that fails ends its request. -/

namespace Sys2Proof.Machine

/-! ## Records that are judged (R91, R92) -/

section
variable {c : Credential} {h : Handle} {r : KeyRecord}

/-- The key size that a record's byte spells (12.3). -/
theorem keySizeOf_byte (b : Byte) :
    keySizeOf b.toNat = if b = 0x01 then some .k256 else if b = 0x02 then some .k512 else none := by
  simp only [keySizeOf, ← BitVec.toNat_inj]
  rfl

/-- The mode that a record's byte spells (12.3). -/
theorem slotModeOf_byte (b : Byte) :
    slotModeOf b.toNat = if b = 0x01 then some .tweak else if b = 0x02 then some .tagged else none := by
  simp only [slotModeOf, ← BitVec.toNat_inj]
  rfl

theorem keySizeOf_known {b : Byte} (h : b = 0x01 ∨ b = 0x02) :
    keySizeOf b.toNat = some (if b = 0x01 then .k256 else .k512) := by
  rcases h with rfl | rfl <;> rfl

theorem slotModeOf_known {b : Byte} (h : b = 0x01 ∨ b = 0x02) :
    slotModeOf b.toNat = some (if b = 0x01 then .tweak else .tagged) := by
  rcases h with rfl | rfl <;> rfl

theorem keySizeOf_unknown {b : Byte} (h : ¬(b = 0x01 ∨ b = 0x02)) : keySizeOf b.toNat = none := by
  obtain ⟨h1, h2⟩ := not_or.1 h
  rw [keySizeOf_byte, if_neg h1, if_neg h2]

theorem slotModeOf_unknown {b : Byte} (h : ¬(b = 0x01 ∨ b = 0x02)) : slotModeOf b.toNat = none := by
  obtain ⟨h1, h2⟩ := not_or.1 h
  rw [slotModeOf_byte, if_neg h1, if_neg h2]

theorem judgeRecord_of_void (c : Credential) (h : Handle) (hm : r.marker = 0x00) : judgeRecord c h r = .keyVoid :=
  if_pos hm

theorem judgeRecord_of_unknownMarker (c : Credential) (h : Handle) (hvoid : r.marker ≠ 0x00)
    (hm : r.marker ≠ validMarker) : judgeRecord c h r = .recordBad :=
  (if_neg hvoid).trans (if_pos hm)

/-- A VALID record is judged by its echo, its key size and mode, and its tag. -/
theorem judgeRecord_of_valid (c : Credential) (h : Handle) (hm : r.marker = validMarker) :
    judgeRecord c h r =
      if r.handleEcho.toNat ≠ h.val then .recordBad
      else
        match keySizeOf r.keySize.toNat, slotModeOf r.mode.toNat with
        | some size, some mode =>
          if r.tag = tagUnder c r then .sound (unwrapKey c r size mode) else .badCredential
        | _, _ => .recordBad := by
  have hvoid : r.marker ≠ 0x00 := by
    rw [hm]
    decide
  exact (if_neg hvoid).trans (if_neg (not_not.2 hm))

theorem judgeRecord_of_otherEcho (c : Credential) (hm : r.marker = validMarker) (he : r.handleEcho.toNat ≠ h.val) :
    judgeRecord c h r = .recordBad :=
  (judgeRecord_of_valid c h hm).trans (if_pos he)

theorem judgeRecord_of_known {size : KeySize} {mode : SlotMode} (c : Credential) (hm : r.marker = validMarker)
    (he : r.handleEcho.toNat = h.val) (hsize : keySizeOf r.keySize.toNat = some size)
    (hmode : slotModeOf r.mode.toNat = some mode) :
    judgeRecord c h r = if r.tag = tagUnder c r then .sound (unwrapKey c r size mode) else .badCredential := by
  rw [judgeRecord_of_valid c h hm, if_neg (not_not.2 he), hsize, hmode]

theorem judgeRecord_of_unknown (c : Credential) (hm : r.marker = validMarker) (he : r.handleEcho.toNat = h.val)
    (hu : ¬((r.keySize = 0x01 ∨ r.keySize = 0x02) ∧ (r.mode = 0x01 ∨ r.mode = 0x02))) :
    judgeRecord c h r = .recordBad := by
  rw [judgeRecord_of_valid c h hm, if_neg (not_not.2 he)]
  rcases not_and_or.1 hu with hsize | hmode
  · rw [keySizeOf_unknown hsize]
  · rw [slotModeOf_unknown hmode]
    cases keySizeOf r.keySize.toNat <;> rfl

/-- The tag of a built record is over what it covers, and the key it wraps is the one that was fitted. -/
theorem judgeRecord_buildRecord (c : Credential) (salt : Salt) {echo : Byte} {k : LoadedKey}
    (he : echo.toNat = h.val) (hfit : fitKey k.size k.block = k.block) :
    judgeRecord c h (buildRecord c salt echo k) = .sound k := by
  have hsize : keySizeOf (buildRecord c salt echo k).keySize.toNat = some k.size := by
    show keySizeOf k.size.code.toNat = _
    cases k.size <;> rfl
  have hmode : slotModeOf (buildRecord c salt echo k).mode.toNat = some k.mode := by
    show slotModeOf k.mode.code.toNat = _
    cases k.mode <;> rfl
  have hkey : unwrapKey c (buildRecord c salt echo k) k.size k.mode = k := by
    simp only [unwrapKey, buildRecord, Equiv.symm_apply_apply, hfit]
  rw [judgeRecord_of_known c rfl he hsize hmode, hkey]
  exact if_pos rfl

end

/-- Settles O38: each test is met by a record that passes those before it. -/
theorem recordsAreJudgedInOrder : Obligations.RecordsAreJudgedInOrder := by
  unfold Obligations.RecordsAreJudgedInOrder
  refine ⟨?_, fun c salt h k hfit => ?_⟩
  · intro c h r sizeOk modeOk wk
    refine ⟨judgeRecord_of_void c h, judgeRecord_of_unknownMarker c h, judgeRecord_of_otherEcho c,
      judgeRecord_of_unknown c, fun hm he hsize hmode ht => ?_, fun hm he hsize hmode ht => ?_⟩
    · rw [judgeRecord_of_known c hm he (keySizeOf_known hsize) (slotModeOf_known hmode)]
      exact if_neg ht
    · rw [judgeRecord_of_known c hm he (keySizeOf_known hsize) (slotModeOf_known hmode)]
      refine (if_pos ht).trans ?_
      unfold unwrapKey
      split_ifs <;> rfl
  · have hecho : (BitVec.ofNat 8 h.val).toNat = h.val := by
      rw [BitVec.toNat_ofNat]
      exact Nat.mod_eq_of_lt (by omega)
    exact judgeRecord_buildRecord c salt hecho hfit

/-! ## Reads that end (R134) -/

section
variable {w : Transaction} {seq : Byte} {e : ExtentId} {s : State}

/-- A READ RECORD that can complete its stop ends, and the link is FREE. -/
theorem exec_readRecordEnd (rest : KeyRecord) (h : inProgress .readRecord w .finalStop s)
    (hop : s.link.operation = none) :
    exec (.readRecordEnd rest) s =
      .next (readEnded w.handle (.ok (completeRecord w rest))
        { s with link := rested .idle .free false s.link }) := by
  obtain ⟨hp, hw, hkind, hm⟩ := h
  refine (rule_of_powered _ hp).trans ?_
  simp only [endRead, hw, if_pos (And.intro hkind hm), endTransaction, trackFree, track, setLinkMaster_link, hop]
  rfl

/-- A failed read is reported to its request (R134). -/
theorem exec_of_failedRead {c : Instr} {f : LinkEnd} (h : failsBy s w c f) (hrun : s.power = .run)
    (hop : s.link.operation = none) :
    exec c s = .next (readEnded f.transaction.handle (.error f.code) (linkFailed f s)) := by
  rw [exec_of_failsBy h hrun, afterFailure, hop]

theorem readEnded_of_unlock {d : Directions} {slot : Option SlotId} {c : Credential} (h : Handle)
    (read : Except LinkFailure KeyRecord) (hx : s.executing = some { seq := seq, request := .unlock e d slot })
    (hc : s.context.credential = some c) :
    readEnded h read s = unlockEnd seq e d slot (verdictOn c h read) s := by
  simp only [readEnded, hx, hc]

theorem readEnded_of_rewrap {old new : Credential} (h : Handle) (read : Except LinkFailure KeyRecord)
    (hx : s.executing = some { seq := seq, request := .rewrap e false })
    (hold : s.context.credential = some old) (hnew : s.context.newCredential = some new) :
    readEnded h read s = rewrapProof seq e h old new read s := by
  simp only [readEnded, hx, hold, hnew]

/-! ## Tries (R98) -/

/-- An extent after one more try. -/
def triedExtent (x : Extent) : Extent :=
  { x with
    tryCount := x.tryCount + 1
    barred := if x.tryCount + 1 = x.policy.tryLimit then true else x.barred }

theorem countTry_of_defined {x : Extent} (hx : s.extents[e] = some x) :
    countTry e s =
      if x.tryCount + 1 = x.policy.tryLimit then setFlag .barred (setExtent e (some (triedExtent x)) s)
      else setExtent e (some (triedExtent x)) s := by
  simp only [countTry, hx, triedExtent]
  split_ifs <;> rfl

/-- A request that ends with a counted try says what has become of the extent, and BARRED is set at the limit. -/
theorem endRequest_countTry {x : Extent} (n : RequestName) (seq : Byte) (hx : s.extents[e] = some x) :
    endRequest n seq .badCredential (tryItems e (countTry e s)) (countTry e s) =
      let u := ended n seq .badCredential
        [item1 0x55 (boolCode (triedExtent x).barred), itemN 0x56 1 (x.tryCount + 1)]
        (setExtent e (some (triedExtent x)) s)
      if x.tryCount + 1 = x.policy.tryLimit then setFlag .barred u else u := by
  have hrecord : (countTry e s).extents[e] = some (triedExtent x) := by
    rw [countTry_of_defined hx]
    split_ifs <;> simp
  have hitems : tryItems e (countTry e s) =
      [item1 0x55 (boolCode (triedExtent x).barred), itemN 0x56 1 (x.tryCount + 1)] := by
    rw [tryItems, hrecord]
    rfl
  rw [hitems, endRequest_eq_ended, countTry_of_defined hx]
  split_ifs <;> rfl

/-! ## The proof of a REWRAP (R104) -/

section
variable {h : Handle} {old new : Credential} {r : KeyRecord}

/-- A record that is VOID or bad ends the request with its verdict. -/
theorem rewrapProof_of_noRecord {v : Verdict} (seq : Byte) (e : ExtentId) (new : Credential) (s : State)
    (hv : judgeRecord old h r = v) (hno : v = .keyVoid ∨ v = .recordBad) :
    rewrapProof seq e h old new (.ok r) s = ended .rewrap seq v.result [] s := by
  rcases hno with rfl | rfl
  · simp only [rewrapProof, verdictOn, hv]
    rfl
  · simp only [rewrapProof, verdictOn, hv]
    rfl

theorem rewrapProof_of_badCredential (seq : Byte) (e : ExtentId) (new : Credential) (s : State)
    (hv : judgeRecord old h r = .badCredential) :
    rewrapProof seq e h old new (.ok r) s =
      endRequest .rewrap seq .badCredential (tryItems e (countTry e s)) (countTry e s) := by
  simp only [rewrapProof, verdictOn, hv]

/-- With a sound record the tries are forgotten, and the Random Source decides whether the write can begin. -/
theorem rewrapProof_of_sound {x : Extent} {k : LoadedKey} (seq : Byte) (new : Credential)
    (hx : s.extents[e] = some x) (hv : judgeRecord old h r = .sound k) :
    rewrapProof seq e h old new (.ok r) s =
      let t := setExtent e (some { x with tryCount := 0 }) s
      if s.random.state = .ready then
        rewrapWrite seq e h r new k (setContext { s.context with wrappingKeys := [wrappingKey old r.salt] } t)
      else ended .rewrap seq .notReady [] t := by
  simp only [rewrapProof, verdictOn, hv, updateExtent_of_defined _ hx]
  rfl

theorem rewrapWrite_eq (seq : Byte) (e : ExtentId) (h : Handle) (r : KeyRecord) (new : Credential) (k : LoadedKey)
    (s : State) :
    rewrapWrite seq e h r new k s =
      let salt := Config.randomSalt s.draws
      let record := buildRecord new salt r.handleEcho k
      { s with
        draws := s.draws + 1
        executing := some { seq := seq, request := .rewrap e true }
        context :=
          { s.context with
            wrappingKeys := s.context.wrappingKeys ++ [wrappingKey new salt]
            recordRead := some r, recordBuilt := some record, key := some k }
        link := askedWrite h record s.link } := by
  rw [rewrapWrite, startWrite_eq]
  rfl

end

end

/-- Settles O40: the verdict on the record read decides, and for a sound one the Random Source. -/
theorem rewrapProofStartsItsWrite : Obligations.RewrapProofStartsItsWrite := by
  unfold Obligations.RewrapProofStartsItsWrite
  refine ⟨?_, ?_⟩
  · intro w c f seq e s hf _ hrun hop hx hold hnew
    obtain ⟨old, hold⟩ := Option.isSome_iff_exists.1 hold
    obtain ⟨new, hnew⟩ := Option.isSome_iff_exists.1 hnew
    rw [exec_of_failedRead hf hrun hop, readEnded_of_rewrap (s := linkFailed f s) _ _ hx hold hnew]
    rfl
  · intro rest w seq e old new x s hw hop hx hold hnew hextent got read t
    have hread : exec (.readRecordEnd rest) s = .next (rewrapProof seq e w.handle old new (.ok got) read) := by
      rw [exec_readRecordEnd rest hw hop, readEnded_of_rewrap (s := read) _ _ hx hold hnew]
    rw [hread]
    refine ⟨fun key hv hr => ?_, ?_, fun hv => ?_, fun hv => ?_, ?_⟩
    · rw [rewrapProof_of_sound (s := read) seq new hextent hv]
      exact congrArg _ (if_neg hr)
    · intro hv n y u
      rw [rewrapProof_of_badCredential seq e new read hv, endRequest_countTry (s := read) .rewrap seq hextent]
      rfl
    · rw [rewrapProof_of_noRecord seq e new read hv (.inl rfl)]
      rfl
    · rw [rewrapProof_of_noRecord seq e new read hv (.inr rfl)]
      rfl
    · intro key hv hr salt record
      rw [rewrapProof_of_sound (s := read) seq new hextent hv]
      refine congrArg _ ((if_pos hr).trans ?_)
      simp only [rewrapWrite_eq, setContext_context, read, hold, hnew]
      rfl

/-! ## Reads of an UNLOCK that fail (R95, R134) -/

section
variable {x : Transaction} {p : LinkPoint}

theorem decidedOr_of_undecided (f : LinkFailure) (x : Transaction) (ha : p ≠ .addressStop) (hn : p ≠ .nackStop) :
    decidedOr f x p = f := by
  cases p
  case addressStop => exact absurd rfl ha
  case nackStop => exact absurd rfl hn
  all_goals rfl

theorem decidedOr_of_lastAddress (f : LinkFailure) (h : x.addressAttempts = 23) :
    decidedOr f x .addressStop = .noDevice :=
  if_pos h

theorem decidedOr_of_earlierAddress (f : LinkFailure) (h : x.addressAttempts ≠ 23) :
    decidedOr f x .addressStop = f :=
  if_neg h

end

/-- The end of a failed UNLOCK empties its slot. -/
theorem unlockEnd_of_failed (seq : Byte) (e : ExtentId) (d : Directions) (slot : Option SlotId) (f : LinkEnd)
    (s : State) :
    unlockEnd seq e d slot (.link f.code) (linkFailed f s) =
      setFlag .linkFail
        (ended .unlock seq f.code.result []
          { s with
            link := rested f.rest f.tracking f.watch s.link
            slots :=
              match slot with
              | some k => s.slots.set k Slot.empty
              | none => s.slots }) := by
  cases slot <;> rfl

/-- Settles O42: every failure is one of failsBy, with its code and the rest it leaves. -/
theorem linkFailureEndsUnlock : Obligations.LinkFailureEndsUnlock := by
  unfold Obligations.LinkFailureEndsUnlock
  intro w seq e d slot c s hp hrun hw _ hop hx hc failed
  have hfails : ∀ c f, failsBy s w c f → exec c s = .next (failed f.code.result f.rest f.tracking f.watch) := by
    intro i f hf
    rw [exec_of_failedRead hf hrun hop, readEnded_of_unlock (s := linkFailed f s) _ _ hx hc]
    exact congrArg _ (unlockEnd_of_failed seq e d slot f s)
  have hstretch : ∀ p, canMeet s.link w p = true →
      exec (.stretchTimeout p) s =
        .next (failed (decidedOr .stretchTimeout w p).result .waitFree .busyOther true) := fun p hm =>
    hfails _ _ ⟨hp, hw, .inr (.inr (.inl ⟨p, rfl, hm, rfl⟩))⟩
  have hcollision : ∀ p rec, canMeet s.link w p = true → checksLine s.link w p = true →
      (p = .nackStop ∨ (p = .addressStop ∧ w.addressAttempts = 23) ∨ w.lossCount = 3) →
      (p ≠ .finalStop ∧ p ≠ .receiveByte 99) →
      exec (.collision p rec) s =
        .next (failed (decidedOr .lost w p).result .idle .busyOther s.link.releaseWatch) :=
    fun p rec hm hk hlast hnot =>
      hfails _ _ ⟨hp, hw, .inr (.inr (.inr (.inr ⟨p, rec, rfl, hm, hk, hlast, fun _ => hnot, rfl⟩)))⟩
  refine ⟨fun hm ha => ?_, fun hm => ?_, fun p hm ha hn => ?_, fun hst hfw => ?_, fun p rec hm hk h3 hmem => ?_,
    fun hm rec => ⟨?_, ?_⟩, fun hm ha rec => ⟨?_, ?_⟩, fun hm ha => ⟨?_, fun h3 rec => ?_⟩, hfails⟩
  · exact hfails _ _ ⟨hp, hw, .inl ⟨rfl, hm, ha, rfl⟩⟩
  · exact hfails _ _ ⟨hp, hw, .inr (.inl ⟨.handleByte, rfl, hm, rfl⟩)⟩
  · rw [hstretch p hm, decidedOr_of_undecided _ _ ha hn]
    rfl
  · exact hfails _ _ ⟨hp, hw, .inr (.inr (.inr (.inl ⟨rfl, hst, hfw, rfl⟩)))⟩
  · have hsent : p ≠ .addressStop ∧ p ≠ .nackStop ∧ p ≠ .finalStop ∧ p ≠ .receiveByte 99 := by
      simp only [List.mem_cons, List.not_mem_nil, or_false] at hmem
      rcases hmem with rfl | rfl | rfl | rfl | rfl <;> simp
    obtain ⟨ha, hn, hfinal, hlast⟩ := hsent
    rw [hcollision p rec hm hk (.inr (.inr h3)) ⟨hfinal, hlast⟩, decidedOr_of_undecided _ _ ha hn]
    rfl
  · exact hstretch _ hm
  · exact hcollision _ rec hm rfl (.inl rfl) (by simp)
  · rw [hstretch _ hm, decidedOr_of_lastAddress _ ha]
    rfl
  · rw [hcollision _ rec hm rfl (.inr (.inl ⟨rfl, ha⟩)) (by simp), decidedOr_of_lastAddress _ ha]
    rfl
  · rw [hstretch _ hm, decidedOr_of_earlierAddress _ ha]
    rfl
  · rw [hcollision _ rec hm rfl (.inr (.inr h3)) (by simp), decidedOr_of_earlierAddress _ ha]
    rfl

end Sys2Proof.Machine
end

section
/-! PROOFS. How ERASE and GENERATE are taken (O36, O37): what each writes when no check applies. And the Random Source
from its warm-up to its failure (O49). -/

namespace Sys2Proof.Machine

/-! ## ERASE (R108 to R110) -/

section
variable {r : Request} {a : EraseArgs} {e : ExtentId} {x : Extent} {s : State}

theorem exec_erase_of_free (hs : Accepts s) (ha : eraseArgs? r = some a) (hx : s.extents[a.extent] = none) :
    exec (.erase r) s = .next (sent (answerTo .erase r .noExtent []) s) := by
  refine (rule_takeRequest_of_accepts _ _ _ hs).trans ?_
  simp only [erase, ha, hx]
  rfl

theorem exec_erase_of_defined (hs : Accepts s) (ha : eraseArgs? r = some a) (hx : s.extents[a.extent] = some x) :
    exec (.erase r) s = .next (carryOutErase r.seq a x s) := by
  refine (rule_takeRequest_of_accepts _ _ _ hs).trans ?_
  simp only [erase, ha, hx]

/-- A cut that may be asked for keeps the extents' records. -/
theorem cutIf_extents (cut : Bool) (named : Job → Bool) (r : CutReason) (s : State) :
    (cutIf cut named r s).extents = s.extents := by
  unfold cutIf
  split
  · exact (JobFrame.of_cutJobs named r s).extents
  · rfl

/-- A cut that may be asked for keeps a LIVE extent's slot READY and bound to it (R62). -/
theorem boundSlot_cutIf (cut : Bool) {named : Job → Bool} (hnamed : ignoresReceipt named) (r : CutReason)
    (h : boundSlot e x s) : boundSlot e x (cutIf cut named r s) := by
  unfold cutIf
  split
  · intro k hk
    obtain ⟨key, hready⟩ := h k hk
    exact ⟨key, cutJobs_ready hnamed r hready⟩
  · exact h

/-- An extent as an ERASE leaves it: ERASED, not barred and without tries (R109, steps 2 and 3). -/
def erasedExtent (x : Extent) : Extent :=
  { x with key := .erased, barred := false, tryCount := 0 }

/-- The part after the release, the clearing and the timer of an ERASE (R109, steps 2 to 4). -/
def eraseDone (e : ExtentId) (x : Extent) (s : State) : State :=
  { s with
    extents := s.extents.set e (some (erasedExtent x))
    slots := releasedSlots x s
    timers := s.timers.set e .disarmed }

/-- An ERASED extent is not LIVE, so that its timer is DISARMED whatever jobs name it (R140). -/
theorem keptTimer_erasedExtent (x : Extent) (jobs : Nat) (t : IdleTimer) :
    keptTimer (erasedExtent x) jobs t = .disarmed := by
  have hfresh : freshTimer (erasedExtent x) jobs = .disarmed := if_neg (by simp [erasedExtent, KeyStatus.isLive])
  simp only [keptTimer, hfresh]

theorem updateExtent_released (hx : s.extents[e] = some x) :
    updateExtent e Extent.cleared (releaseExtent .erase e s) =
      { s with extents := s.extents.set e (some (erasedExtent x)), slots := releasedSlots x s } := by
  rw [releaseExtent_changes, releaseExtent_extents .erase hx, releaseExtent_slots .erase hx,
    updateExtent_of_defined _ (x := { x with key := .erased }) (by simp)]
  simp only [setExtent, Vector.set_set]
  rfl

theorem judgeTimer_released (hx : s.extents[e] = some x) :
    judgeTimer false e (updateExtent e Extent.cleared (releaseExtent .erase e s)) = eraseDone e x s := by
  rw [updateExtent_released hx, judgeTimer_keep (x := erasedExtent x) (by simp), keptTimer_erasedExtent]
  rfl

/-- The steps of ERASE after its cut. -/
theorem carryOutErase_of_cut {u : State} (seq : Byte)
    (hu : cutIf a.cut (fun j => decide (j.extent = a.extent)) .cutErase s = u)
    (hx : u.extents[a.extent] = some x) (hbound : boundSlot a.extent x u) :
    carryOutErase seq a x s =
      { eraseDone a.extent x u with
        executing := some { seq := seq, request := .erase a.extent (drainingSlot x u) none }
        context := { WorkingContext.empty with recordBuilt := some voidRecord }
        link := askedWrite x.handle voidRecord u.link } := by
  have hdrain : leftDraining a.extent u (eraseDone a.extent x u) = drainingSlot x u :=
    leftDraining_of_released hx rfl hbound rfl
  rw [carryOutErase, hu]
  simp only [judgeTimer_released hx, hdrain, startWrite_eq]
  rfl

end

/-- Settles O36: the cut leaves the extent and the state of its slot, so that the release is that of the part after the
cut, and the drain it leaves is the one waited for. -/
theorem eraseBegins : Obligations.EraseBegins := by
  unfold Obligations.EraseBegins
  intro r a s hs ha
  refine ⟨exec_erase_of_free hs ha, ?_⟩
  intro x hx hbound u void
  have hcut : cutIf a.cut (fun j => decide (j.extent = a.extent)) .cutErase s = u := rfl
  have hu : u.extents[a.extent] = some x := by rw [← hcut, cutIf_extents, hx]
  have hbound' : boundSlot a.extent x u := boundSlot_cutIf a.cut (fun _ _ => rfl) .cutErase hbound
  rw [exec_erase_of_defined hs ha hx, carryOutErase_of_cut r.seq hcut hu hbound']
  rfl

/-! ## GENERATE (R115) -/

section
variable {r : Request} {a : GenerateArgs} {x : Extent} {s : State}

theorem exec_generate_of_free (hs : Accepts s) (ha : generateArgs? r = some a) (hx : s.extents[a.extent] = none) :
    exec (.generate r) s = .next (sent (answerTo .generate r .noExtent []) s) := by
  refine (rule_takeRequest_of_accepts _ _ _ hs).trans ?_
  simp only [generate, ha, hx]
  rfl

theorem exec_generate_of_defined (hs : Accepts s) (ha : generateArgs? r = some a)
    (hx : s.extents[a.extent] = some x) : exec (.generate r) s = .next (generateOn r a x s) := by
  refine (rule_takeRequest_of_accepts _ _ _ hs).trans ?_
  simp only [generate, ha, hx]

theorem generateOn_of_key (r : Request) (a : GenerateArgs) (s : State) (hk : x.key ≠ .erased) :
    generateOn r a x s = sent (answerTo .generate r .keyPresent []) s :=
  if_pos hk

theorem generateOn_of_notReady (r : Request) (a : GenerateArgs) (hk : x.key = .erased)
    (hr : s.random.state ≠ .ready) : generateOn r a x s = sent (answerTo .generate r .notReady []) s :=
  (if_neg (not_not.2 hk)).trans (if_pos hr)

/-- An ERASED extent, with the Random Source READY, is judged by the slots. -/
theorem generateOn_of_ready (r : Request) (a : GenerateArgs) (hk : x.key = .erased)
    (hr : s.random.state = .ready) :
    generateOn r a x s =
      match emptySlot? s with
      | none => sent (answerTo .generate r .noSlot []) s
      | some k => beginGenerate r.seq a x k s := by
  rw [generateOn, if_neg (not_not.2 hk), if_neg (not_not.2 hr)]
  rfl

/-- GENERATE begins with its slot, the values drawn and the write of the record built from them. -/
theorem beginGenerate_eq (seq : Byte) (a : GenerateArgs) (x : Extent) (k : SlotId) (s : State) :
    beginGenerate seq a x k s =
      { allocate k a.extent s with
        draws := s.draws + 1
        executing := some { seq := seq, request := .generate a.extent a.dirs k }
        context := generateContext a x s
        link := askedWrite x.handle (generatedRecord a x s) s.link } := by
  rw [beginGenerate, startWrite_eq]
  rfl

end

/-- Settles O37: each check is met on an extent and a part that the checks before it pass. -/
theorem generateBegins : Obligations.GenerateBegins := by
  unfold Obligations.GenerateBegins
  intro r a s hs ha refusedWith
  refine ⟨exec_generate_of_free hs ha, fun x hx => ?_⟩
  have htaken : exec (.generate r) s = .next (generateOn r a x s) := exec_generate_of_defined hs ha hx
  have hrefused : ∀ c, generateOn r a x s = sent (answerTo .generate r c []) s → refusedWith c := fun _ h =>
    htaken.trans (congrArg _ h)
  refine ⟨fun hk => ?_, fun hk hr => ?_, fun hk hr hfull => ?_, fun k hk hr hempty hlowest => ?_⟩
  · exact hrefused _ (generateOn_of_key r a s hk)
  · exact hrefused _ (generateOn_of_notReady r a hk hr)
  · refine hrefused _ ?_
    rw [generateOn_of_ready r a hk hr, emptySlot?_none.2 hfull]
  · have hfound : emptySlot? s = some k := emptySlot?_lowest hempty hlowest
    intro key salt record
    rw [htaken, generateOn_of_ready r a hk hr, hfound]
    exact congrArg _ (beginGenerate_eq r.seq a x k s)

/-! ## The Random Source (R118) -/

section
variable {s : State}

theorem takeSample_of_earlier (h : s.random.state = .warming) (hn : s.random.warmUp + 1 ≠ 1024) :
    takeSample s = { s with random := { state := .warming, warmUp := s.random.warmUp + 1 } } := by
  simp only [takeSample, if_pos h, warmUpFull, hn, if_false]
  rfl

theorem takeSample_of_last (h : s.random.state = .warming) (hn : s.random.warmUp + 1 = 1024) :
    takeSample s = { s with random := { state := .ready, warmUp := 1024 } } := by
  simp only [takeSample, if_pos h, warmUpFull, hn, if_true]
  rfl

theorem takeSample_of_warm (h : s.random.state ≠ .warming) : takeSample s = s := if_neg h

theorem endWarmUp_of_last (h : s.random.state = .warming) (hn : s.random.warmUp + 1 = 1024) :
    endWarmUp s = { s with random := { state := .ready, warmUp := 1024 } } :=
  if_pos ⟨h, hn⟩

theorem endWarmUp_of_warm (h : s.random.state ≠ .warming) : endWarmUp s = s := if_neg fun c => h c.1

theorem failRepetition_of_running (h : s.random.state ≠ .failed) :
    failRepetition s = setFlag .randomFail { s with random := { s.random with state := .failed } } :=
  if_neg h

theorem failRepetition_of_failed (h : s.random.state = .failed) : failRepetition s = s := if_pos h

end

/-- Settles O49: each event acts by the state of the Random Source alone, and a sample in WARMING by its count. -/
theorem randomSourceWarmsAndFails : Obligations.RandomSourceWarmsAndFails := by
  unfold Obligations.RandomSourceWarmsAndFails
  intro s hp
  have hsample : exec .randomSample s = .next (takeSample s) := rule_of_powered takeSample hp
  have hend : exec .warmUpEnd s = .next (endWarmUp s) := rule_of_powered endWarmUp hp
  have hfail : exec .repetitionTestFailure s = .next (failRepetition s) := rule_of_powered failRepetition hp
  refine ⟨fun hw hn => ?_, fun hw hn => ⟨?_, ?_⟩, fun hw => ⟨?_, ?_⟩, fun hf => ?_, fun hf => ?_⟩
  · rw [hsample, takeSample_of_earlier hw hn]
  · rw [hsample, takeSample_of_last hw hn]
  · rw [hend, endWarmUp_of_last hw hn]
  · rw [hsample, takeSample_of_warm hw]
  · rw [hend, endWarmUp_of_warm hw]
  · rw [hfail, failRepetition_of_running hf]
  · rw [hfail, failRepetition_of_failed hf]

end Sys2Proof.Machine
end

section
/-! PROOFS. How an UNLOCK ends by the verdict on its record (O39), what the Link Master does about a missing
acknowledge of an address and about what it hears on the lines (O43, O45), and SET LINK (O46). -/

namespace Sys2Proof.Machine

/-! ## Records that are completed (R125) -/

/-- A record is completed to 100 bytes by those still missing. -/
theorem recordBytes_completeRecord {w : Transaction} (rest : KeyRecord) (h : w.record.length ≤ 100) :
    recordBytes (completeRecord w rest) = w.record ++ (recordBytes rest).drop w.record.length := by
  refine recordBytes_recordOfBytes ?_
  rw [List.length_append, List.length_drop, recordBytes_length]
  omega

/-- Where no byte was received, the record is the one that the command brings. -/
theorem completeRecord_of_nothing {w : Transaction} (rest : KeyRecord) (h : w.record = []) :
    completeRecord w rest = rest := by
  rw [completeRecord, h]
  exact recordOfBytes_recordBytes rest

/-! ## UNLOCK ends by its verdict (R95, R98) -/

section
variable {seq : Byte} {e : ExtentId} {d : Directions} {slot : Option SlotId} {x : Extent} {s : State}

/-- The slots once the one that a request was allocated, if any, is EMPTY again (R63). -/
def slotsGivenBack (slot : Option SlotId) (s : State) : Vector Slot 32 :=
  match slot with
  | some k => s.slots.set k Slot.empty
  | none => s.slots

theorem freeAllocated_eq (slot : Option SlotId) (s : State) :
    freeAllocated slot s = { s with slots := slotsGivenBack slot s } := by
  cases slot <;> rfl

/-- An extent as a sound record leaves it: LIVE where a slot was allocated, the requested locks cleared, and without
tries. -/
def unlockedExtent (d : Directions) (slot : Option SlotId) (x : Extent) : Extent :=
  { x with
    key :=
      match slot with
      | some k => .live k
      | none => x.key
    readLock := x.readLock && !d.read, writeLock := x.writeLock && !d.write, tryCount := 0 }

/-- The slot of a loaded key: READY, with a counter of 0 and the limits of its extent (R61). -/
def loadedSlot (e : ExtentId) (x : Extent) (key : LoadedKey) : Slot :=
  { state := .ready e key, pins := 0, usage := 0, limit := x.policy.usageLimit
    stopAtLimit := x.policy.stopAtLimit, worn := false }

/-- The slots once the one that was allocated, if any, holds a key. -/
def slotsLoaded (slot : Option SlotId) (v : Slot) (s : State) : Vector Slot 32 :=
  match slot with
  | some k => s.slots.set k v
  | none => s.slots

/-- A sound record writes the extent, its slot where one was allocated, and its timer. -/
theorem unlockSound_eq (d : Directions) (slot : Option SlotId) (key : LoadedKey) (hx : s.extents[e] = some x) :
    unlockSound e d slot key s =
      { s with
        extents := s.extents.set e (some (unlockedExtent d slot x))
        slots := slotsLoaded slot (loadedSlot e x key) s
        timers := s.timers.set e (freshTimer (unlockedExtent d slot x) (jobsNaming e s)) } := by
  cases slot with
  | none =>
    simp only [unlockSound, updateExtent_of_defined _ hx]
    rw [judgeTimer_restart (x := unlockedExtent d none x) (by simp [unlockedExtent, Extent.unlocked])]
    rfl
  | some k =>
    simp only [unlockSound, loadKey_of_defined k key hx]
    rw [updateExtent_of_defined (x := { x with key := .live k }) _ (by simp),
      judgeTimer_restart (x := unlockedExtent d (some k) x) (by simp [unlockedExtent, Extent.unlocked])]
    simp only [setExtent, setSlot, setTimer, Vector.set_set]
    rfl

/-- An UNLOCK with a sound record is answered with what has become of its extent. -/
theorem unlockEnd_of_sound (seq : Byte) (d : Directions) (slot : Option SlotId) (key : LoadedKey)
    (hx : s.extents[e] = some x) :
    unlockEnd seq e d slot (.sound key) s =
      let y := unlockedExtent d slot x
      ended .unlock seq .ok
        ([item1 0x51 y.key.code]
          ++ (match y.key with
              | .live k => [itemN 0x52 1 k.val]
              | _ => [])
          ++ [item1 0x53 (boolCode y.readLock), item1 0x54 (boolCode y.writeLock), itemN 0x56 1 0])
        (unlockSound e d slot key s) := by
  have hrecord : (unlockSound e d slot key s).extents[e] = some (unlockedExtent d slot x) := by
    rw [unlockSound_eq d slot key hx]
    simp
  simp only [unlockEnd, keyStatusItem, slotItems, lockItems, hrecord, Option.map_some, Option.getD_some,
    endRequest_eq_ended]
  cases (unlockedExtent d slot x).key <;> rfl

/-- Without a sound record, and but for a bad credential, an UNLOCK only gives its slot back. -/
theorem unlockEnd_of_noRecord {v : Verdict} (seq : Byte) (e : ExtentId) (d : Directions) (slot : Option SlotId)
    (s : State) (hno : v = .keyVoid ∨ v = .recordBad) :
    unlockEnd seq e d slot v s = ended .unlock seq v.result [] (freeAllocated slot s) := by
  rcases hno with rfl | rfl <;> rfl

end

/-- Settles O39: the verdict on the completed record decides, and the request ends in the rule that ends its read. -/
theorem unlockEndsByItsVerdict : Obligations.UnlockEndsByItsVerdict := by
  unfold Obligations.UnlockEndsByItsVerdict
  refine ⟨fun w rest => recordBytes_completeRecord rest, fun w rest => completeRecord_of_nothing rest, ?_⟩
  intro rest w seq e d slot c x s hw hop hx hc hextent got t failed
  have hread : ∀ v, judgeRecord c w.handle got = v →
      exec (.readRecordEnd rest) s = .next (unlockEnd seq e d slot v t) := by
    rintro v rfl
    rw [exec_readRecordEnd rest hw hop, readEnded_of_unlock (s := t) _ _ hx hc]
    rfl
  have hfailed : freeAllocated slot t = failed := freeAllocated_eq slot t
  refine ⟨fun key hv => ?_, fun hv => ?_, fun hv => ?_, fun hv => ?_⟩
  · rw [hread _ hv, unlockEnd_of_sound (s := t) seq d slot key hextent, unlockSound_eq (s := t) d slot key hextent]
    rfl
  · rw [hread _ hv]
    simp only [unlockEnd, hfailed]
    rw [endRequest_countTry (s := failed) .unlock seq hextent]
    rfl
  · rw [hread _ hv, unlockEnd_of_noRecord _ _ _ _ _ (.inl rfl), hfailed]
    rfl
  · rw [hread _ hv, unlockEnd_of_noRecord _ _ _ _ _ (.inr rfl), hfailed]
    rfl

/-! ## Addresses that go unacknowledged (R127) -/

section
variable {w : Transaction} {s : State}

/-- Short of the 24th, an unacknowledged address leads to a wait. -/
theorem addressNacked_of_earlier (hw : s.link.transaction = some w) (hm : canMeet s.link w .addressStop = true)
    (hn : w.addressAttempts < 23) : addressNacked s = pollWait (unacknowledged w) (trackFree s) := by
  have hshort : (unacknowledged w).addressAttempts ≠ maxAttempts :=
    Nat.ne_of_lt (show w.addressAttempts + 1 < 24 by omega)
  simp only [addressNacked, hw, hm, hshort, if_true, if_false]

/-- With the address the opening start has been made, so that a WRITE RECORD has begun. -/
theorem unacknowledged_eq (w : Transaction) :
    unacknowledged w =
      { w with
        addressAttempts := w.addressAttempts + 1
        writeBegun := w.writeBegun || decide (w.kind = .writeRecord) } := by
  simp [unacknowledged, begunBy]

theorem endPollWait_of_waiting (hw : s.link.transaction = some w) (hst : s.link.state = .pollWait) :
    endPollWait s = { s with link := attempting w s.link } := by
  simp only [endPollWait, hst, hw]
  exact beginAttempt_eq w s

end

/-- Settles O43: the wait is entered with one attempt more, and its end begins the attempt anew. -/
theorem unacknowledgedAddressIsPolled : Obligations.UnacknowledgedAddressIsPolled := by
  unfold Obligations.UnacknowledgedAddressIsPolled
  intro w s hp hw
  refine ⟨fun hm hn => ?_, fun hst => ?_⟩
  · refine (rule_of_powered addressNacked hp).trans ?_
    rw [addressNacked_of_earlier hw hm hn, unacknowledged_eq]
    rfl
  · refine (rule_of_powered endPollWait hp).trans ?_
    rw [endPollWait_of_waiting hw hst]

/-! ## Link tracking (R122, R124) -/

/-- The Link Master once the link has become FREE. -/
def freedLink (l : LinkMaster) : LinkMaster :=
  let free : LinkMaster := { l with tracking := .free, releaseWatch := false }
  if l.state = .waitFree then
    match l.transaction with
    | some w => attempting w free
    | none => { free with state := .idle, freeWait := none }
  else free

/-- Who waits for the link takes it, and who rests beside it becomes IDLE. -/
theorem linkFree_eq (s : State) : linkFree s = { s with link := freedLink s.link } := by
  unfold linkFree freedLink
  cases hst : s.link.state
  case waitFree =>
    cases hw : s.link.transaction with
    | none => simp only [trackFree, track, setLinkMaster_link, hst, hw, if_true]; rfl
    | some w => simp only [trackFree, track, setLinkMaster_link, hst, hw, if_true, beginAttempt_eq]; rfl
  all_goals
    simp only [trackFree, track, setLinkMaster_link, hst]
    rfl

/-- Settles O45: a stop and a quiet link that is watched make the link FREE in the same way. -/
theorem linkTrackingFollowsTheLines : Obligations.LinkTrackingFollowsTheLines := by
  unfold Obligations.LinkTrackingFollowsTheLines
  intro s hp free heard
  have hheard : linkFree s = heard := linkFree_eq s
  have hquiet : exec .releaseWatchQuiet s = .next (quiet s) := rule_of_powered quiet hp
  refine ⟨rule_of_powered trackBusy hp, ?_, fun hwatch => ?_, fun hwatch => ?_⟩
  · rw [← hheard]
    exact rule_of_powered linkFree hp
  · rw [hquiet, quiet, if_pos hwatch, hheard]
  · rw [hquiet, quiet, if_neg (by simp [hwatch])]

/-! ## SET LINK (R136) -/

section
variable {s : State}

theorem dropWithheld_of_kept (h : s.withheld = none ∨ s.stallOnFull = true) : dropWithheld s = s := by
  unfold dropWithheld
  rcases h with h | h
  · rw [h]
    cases s.stallOnFull <;> rfl
  · rw [h]

theorem dropWithheld_of_withheld {w : Withheld} (hs : s.stallOnFull = false) (hw : s.withheld = some w) :
    dropWithheld s = overrun w.tag { s with withheld := none } := by
  simp only [dropWithheld, hs, hw]

/-- A sector dropped while nothing is withheld stops its ACTIVE job. -/
theorem overrun_of_active {t : TagId} {j : Job} (hj : s.jobs[t] = some j) (ha : j.state = .active)
    (hw : s.withheld = none) :
    overrun t s = closeIfDone t (endedAt t j j.nextToReceive (.stop .overrun) (setFlag .overrun s)) := by
  simp only [overrun, hj]
  rw [stopJob_of_active j.nextToReceive .overrun (s := setFlag .overrun s) hj ha hw]

/-- A dropped sector changes none of the settings that are answered. -/
theorem linkItems_dropWithheld (s : State) : linkItems (dropWithheld s) = linkItems s := by
  unfold dropWithheld
  split
  · next w _ _ =>
    have hframe := JobFrame.of_overrun w.tag { s with withheld := none }
    simp only [linkItems, hframe.link, hframe.stallOnFull]
  · rfl

end

/-- Settles O46: what is withheld, and stall on full as it then stands, decide whether a sector is dropped. -/
theorem setLinkWritesCarried : Obligations.SetLinkWritesCarried := by
  unfold Obligations.SetLinkWritesCarried
  intro r a s hs ha l stall m t
  have htaken : exec (.setLink r) s = .next (sent m (dropWithheld t)) := by
    refine (rule_takeRequest_of_accepts _ _ _ hs).trans ?_
    have happly : applyLink a s = dropWithheld t := rfl
    simp only [setLink, ha, happly, linkItems_dropWithheld]
    rfl
  refine ⟨fun h => ?_, fun w j hw hstall hj hactive => ?_⟩
  · rw [htaken, dropWithheld_of_kept (s := t) h]
  · rw [htaken, dropWithheld_of_withheld (s := t) hstall hw,
      overrun_of_active (s := { t with withheld := none }) hj hactive rfl]

end Sys2Proof.Machine
end

section
/-! PROOFS. How a write operation ends: as a failure of one of its two transactions, or by the comparison of its
read-back (O41). -/

namespace Sys2Proof.Machine

/-! ## Write operations that end (R133, R134) -/

section
variable {seq : Byte} {e : ExtentId} {d : Directions} {k : SlotId} {w : WriteEnd} {x : Extent} {s : State}

theorem writeEnded_of_rewrap (w : WriteEnd) (hx : s.executing = some { seq := seq, request := .rewrap e true }) :
    writeEnded w s = ended .rewrap seq w.outcome.result [item1 0x60 w.facts.phase.code] s := by
  simp only [writeEnded, hx]
  rfl

/-- A GENERATE whose record is not verified gives its slot back. -/
theorem writeEnded_of_generate (hx : s.executing = some { seq := seq, request := .generate e d k })
    (hv : w.outcome ≠ .verified) :
    writeEnded w s =
      ended .generate seq w.outcome.result [item1 0x60 w.facts.phase.code]
        { s with slots := s.slots.set k Slot.empty } := by
  simp only [writeEnded, hx, generateEnd]
  split
  · next h _ => exact absurd h hv
  · rfl

/-- An extent whose generated record is verified: LIVE, the requested locks cleared, and its store not stale. -/
def generatedExtent (d : Directions) (k : SlotId) (x : Extent) : Extent :=
  { x with
    key := .live k, readLock := x.readLock && !d.read, writeLock := x.writeLock && !d.write
    storeStale := false }

theorem generateLoad_eq (d : Directions) (k : SlotId) (key : LoadedKey) (hx : s.extents[e] = some x) :
    generateLoad e d k key s =
      { s with
        extents := s.extents.set e (some (generatedExtent d k x))
        slots := s.slots.set k (loadedSlot e x key)
        timers := s.timers.set e (freshTimer (generatedExtent d k x) (jobsNaming e s)) } := by
  simp only [generateLoad, loadKey_of_defined k key hx]
  rw [updateExtent_of_defined (x := { x with key := .live k }) _ (by simp),
    judgeTimer_restart (x := generatedExtent d k x) (by simp [generatedExtent, Extent.unlocked])]
  simp only [setExtent, setSlot, setTimer, Vector.set_set]
  rfl

/-- A GENERATE whose record is verified loads its key. -/
theorem writeEnded_of_generate_verified {key : LoadedKey}
    (hx : s.executing = some { seq := seq, request := .generate e d k }) (hkey : s.context.key = some key)
    (hv : w.outcome = .verified) (hextent : s.extents[e] = some x) :
    writeEnded w s =
      let y := generatedExtent d k x
      ended .generate seq .ok
        [item1 0x26 key.size.code, item1 0x27 key.mode.code, itemN 0x52 1 k.val,
          item1 0x53 (boolCode y.readLock), item1 0x54 (boolCode y.writeLock)]
        (generateLoad e d k key s) := by
  have hrecord : (generateLoad e d k key s).extents[e] = some (generatedExtent d k x) := by
    rw [generateLoad_eq d k key hextent]
    simp
  simp only [writeEnded, hx, generateEnd, hv, hkey, lockItems, hrecord]
  rfl

/-- The part once the store stale of an extent is settled (R111, R112). -/
def staleSettled (e : ExtentId) (x : Extent) (stale : Bool) (s : State) : State :=
  let t : State := { s with extents := s.extents.set e (some { x with storeStale := stale }) }
  if stale then setFlag .storeStale t else t

theorem settleStale_eq (stale : Bool) (hx : s.extents[e] = some x) :
    settleStale e stale s = staleSettled e x stale s := by
  simp only [settleStale, updateExtent_of_defined _ hx]
  rfl

theorem staleSettled_extent (e : ExtentId) (x : Extent) (stale : Bool) (s : State) :
    (staleSettled e x stale s).extents[e] = some { x with storeStale := stale } := by
  cases stale <;> simp [staleSettled]

/-- The answer of an ERASE, where store stale is settled. -/
theorem answerErase_eq (seq : Byte) (w : WriteEnd) (hx : s.extents[e] = some x) :
    answerErase seq e w s =
      let stale := item1 0x57 (boolCode x.storeStale)
      let phase := item1 0x60 w.facts.phase.code
      match w.outcome with
      | .verified => ended .erase seq .ok [item1 0x51 x.key.code, stale, phase] s
      | .differs => ended .erase seq .storeNotVoided [stale, phase, item1 0x61 0x48] s
      | .failed f => ended .erase seq .storeNotVoided [stale, phase, item1 0x61 f.result.code] s := by
  simp only [answerErase, keyStatusItem, staleItem, hx]
  cases w.outcome <;> rfl

/-- The void write of an ERASE ends: store stale is settled by its outcome, and the request is answered unless it
waits for a drain. -/
theorem writeEnded_of_erase {drain : Option SlotId} (w : WriteEnd)
    (hx : s.executing = some { seq := seq, request := .erase e drain none }) (hextent : s.extents[e] = some x) :
    writeEnded w s =
      let u := staleSettled e x (decide (w.outcome ≠ .verified)) s
      match drain with
      | none => answerErase seq e w u
      | some k => { u with executing := some { seq := seq, request := .erase e (some k) (some w) } } := by
  simp only [writeEnded, hx, eraseWritten, settleStale_eq _ hextent]
  cases drain <;> rfl

end

/-! ## Write operations that fail -/

section
variable {seq : Byte} {e : ExtentId} {f : LinkEnd} {o : WriteOperation} {s : State}

/-- A failed transaction of a write operation ends the operation, with the facts reached. -/
theorem afterFailure_of_write (f : LinkEnd) (hop : s.link.operation = some o) :
    afterFailure f s =
      writeEnded { outcome := .failed f.code, facts := factsReached f.transaction (some o) } (linkFailed f s) := by
  simp only [afterFailure, hop]

theorem afterFailure_of_generate {d : Directions} {k : SlotId} (f : LinkEnd) (hop : s.link.operation = some o)
    (hx : s.executing = some { seq := seq, request := .generate e d k }) :
    afterFailure f s =
      ended .generate seq f.code.result [item1 0x60 (factsReached f.transaction (some o)).phase.code]
        { linkFailed f s with slots := s.slots.set k Slot.empty } := by
  rw [afterFailure_of_write f hop, writeEnded_of_generate (s := linkFailed f s) hx (by simp)]
  rfl

theorem afterFailure_of_rewrap (f : LinkEnd) (hop : s.link.operation = some o)
    (hx : s.executing = some { seq := seq, request := .rewrap e true }) :
    afterFailure f s =
      ended .rewrap seq f.code.result [item1 0x60 (factsReached f.transaction (some o)).phase.code]
        (linkFailed f s) := by
  rw [afterFailure_of_write f hop, writeEnded_of_rewrap (s := linkFailed f s) _ hx]
  rfl

/-- A failed void write leaves the store stale. -/
theorem afterFailure_of_erase {drain : Option SlotId} {x : Extent} (f : LinkEnd) (hop : s.link.operation = some o)
    (hx : s.executing = some { seq := seq, request := .erase e drain none }) (hextent : s.extents[e] = some x) :
    afterFailure f s =
      let facts := factsReached f.transaction (some o)
      let u := staleSettled e x true (linkFailed f s)
      match drain with
      | none =>
        ended .erase seq .storeNotVoided
          [item1 0x57 0x01, item1 0x60 facts.phase.code, item1 0x61 f.code.result.code] u
      | some k =>
        { u with
          executing := some
            { seq := seq
              request := .erase e (some k) (some { outcome := .failed f.code, facts := facts }) } } := by
  rw [afterFailure_of_write f hop, writeEnded_of_erase (s := linkFailed f s) _ hx hextent]
  cases drain with
  | none =>
    exact answerErase_eq seq _ (staleSettled_extent e x true (linkFailed f s))
  | some k => rfl

/-- How a transaction ends whose byte is not acknowledged (R128). -/
def nackedEnd (b : NackedByte) (w : Transaction) : LinkEnd :=
  ⟨.nackData, metAt (nackedElement b) w, .idle, .free, false⟩

/-- An unacknowledged byte ends its transaction in every power state. -/
theorem exec_nackData {b : NackedByte} {w : Transaction} (hp : s.powered = true)
    (hw : s.link.transaction = some w) (hm : canMissAck s.link w b = true) :
    exec (.nackData b) s = .next (afterFailure (nackedEnd b w) s) := by
  refine (rule_of_powered _ hp).trans ?_
  simp only [dataNacked, hw, hm, if_true]
  rw [endTransaction_failed]
  rfl

/-- A WRITE RECORD that fails at a byte has begun, and nothing is verified. -/
theorem phase_of_nacked (b : NackedByte) {w : Transaction} (hkind : w.kind = .writeRecord)
    (hv : o.verified = false) :
    (factsReached (nackedEnd b w).transaction (some o)).phase = .uncertain := by
  have hnot : nackedElement b ≠ .openingStart := by cases b <;> nofun
  simp [factsReached, nackedEnd, metAt, hkind, hnot, hv, WriteFacts.phase]

end

/-! ## Write operations that are read back (R126, R133) -/

section
variable {w : Transaction} {o : WriteOperation} {s : State}

/-- A WRITE RECORD that ends OK is followed by its read-back, and its operation keeps the write facts. -/
theorem endTransaction_writeOk (hop : s.link.operation = some o) (hkind : w.kind = .writeRecord) (st : LinkState) :
    endTransaction w .writeOk st s =
      { s with
        link :=
          { askedRead w.handle (rested st s.link.tracking s.link.releaseWatch s.link) with
            operation := some { o with writeBegun := w.writeBegun, finalStopSent := w.finalStopSent } } } := by
  simp only [endTransaction, hop, Option.map_some, absorb, hkind, startRead_eq]
  rfl

/-- A READ RECORD that ends OK reports its record, or is the read-back of a write operation. -/
theorem endTransaction_readOk (hkind : w.kind = .readRecord) (r : KeyRecord) (st : LinkState) (s : State) :
    endTransaction w (.readOk r) st s =
      let t := relink (rested st s.link.tracking s.link.releaseWatch s.link) s
      match s.link.operation with
      | none => readEnded w.handle (.ok r) t
      | some o => writeEnded (compareReadBack o r) t := by
  unfold endTransaction
  cases s.link.operation with
  | none => rfl
  | some o => simp only [Option.map_some, absorb, hkind]; rfl

theorem exec_writeRecordEnd (h : inProgress .writeRecord w .finalStop s) (hop : s.link.operation = some o) :
    exec .writeRecordEnd s =
      .next
        { s with
          link :=
            { askedRead w.handle (rested .idle .free false s.link) with
              operation := some { o with writeBegun := true, finalStopSent := true } } } := by
  obtain ⟨hp, hw, hkind, hm⟩ := h
  refine (rule_of_powered _ hp).trans ?_
  simp only [endWrite, hw, if_pos (And.intro hkind hm)]
  exact congrArg _
    (endTransaction_writeOk (w := { w with writeBegun := true, finalStopSent := true }) (s := trackFree s) hop hkind
      .idle)

/-- A read-back ends its write operation with the comparison. -/
theorem exec_readRecordEnd_of_write (rest : KeyRecord) (h : inProgress .readRecord w .finalStop s)
    (hop : s.link.operation = some o) :
    exec (.readRecordEnd rest) s =
      .next (writeEnded (compareReadBack o (completeRecord w rest))
        { s with link := rested .idle .free false s.link }) := by
  obtain ⟨hp, hw, hkind, hm⟩ := h
  have hop' : (trackFree s).link.operation = some o := hop
  refine (rule_of_powered _ hp).trans ?_
  simp only [endRead, hw, if_pos (And.intro hkind hm), endTransaction_readOk hkind, hop']
  rfl

theorem compareReadBack_of_same {r : KeyRecord} (h : r = o.bytes) :
    compareReadBack o r = { outcome := .verified, facts := { o.toWriteFacts with verified := true } } := by
  simp [compareReadBack, h]

theorem compareReadBack_of_other {r : KeyRecord} (h : r ≠ o.bytes) :
    compareReadBack o r = { outcome := .differs, facts := { o.toWriteFacts with verified := false } } := by
  simp [compareReadBack, h]

/-- A write that has begun and is not verified is UNCERTAIN. -/
theorem phase_of_differing (hb : o.writeBegun = true) :
    ({ o.toWriteFacts with verified := false } : WriteFacts).phase = .uncertain := by
  simp [WriteFacts.phase, hb]

end

/-- Settles O41: each end of the write operation reaches its request as a failure, or as the comparison of the
read-back. -/
theorem writeOperationIsReadBack : Obligations.WriteOperationIsReadBack := by
  unfold Obligations.WriteOperationIsReadBack
  refine ⟨fun _ => rfl, ?_, fun w o s => exec_writeRecordEnd, ?_, ?_⟩
  · intro w o seq c f s hf hrun hop t facts phase
    rw [exec_of_failsBy hf hrun]
    refine ⟨fun e d k hx => ?_, fun e hx => ?_, fun e drain x hx hextent => ?_⟩
    · rw [afterFailure_of_generate f hop hx]
      rfl
    · rw [afterFailure_of_rewrap f hop hx]
    · rw [afterFailure_of_erase f hop hx hextent]
      cases drain <;> rfl
  · intro b w o seq s hp hw hkind hm hop hv t
    have hphase : (factsReached (nackedEnd b w).transaction (some o)).phase = .uncertain :=
      phase_of_nacked b hkind hv
    rw [exec_nackData hp hw hm]
    refine ⟨fun e d k hx => ?_, fun e hx => ?_, fun e x hx hextent => ?_⟩
    · rw [afterFailure_of_generate _ hop hx, hphase]
      rfl
    · rw [afterFailure_of_rewrap _ hop hx, hphase]
      rfl
    · rw [afterFailure_of_erase _ hop hx hextent]
      simp only [hphase]
      rfl
  · intro rest w o seq s hw hop hbegun hv got t
    have hphase := phase_of_differing hbegun
    have hread : exec (.readRecordEnd rest) s = .next (writeEnded (compareReadBack o got) t) :=
      exec_readRecordEnd_of_write rest hw hop
    rw [hread]
    refine ⟨?_, ?_, ?_⟩
    · intro e d k key x hx hkey hextent y
      refine ⟨fun hsame => ?_, fun hother => ?_⟩
      · rw [compareReadBack_of_same hsame,
          writeEnded_of_generate_verified (s := t) hx hkey rfl hextent, generateLoad_eq (s := t) d k key hextent]
        rfl
      · rw [compareReadBack_of_other hother, writeEnded_of_generate (s := t) hx (by simp), hphase]
        rfl
    · intro e drain x hx hextent same settled u
      by_cases hsame : got = o.bytes
      · have hs : same = true := decide_eq_true hsame
        rw [compareReadBack_of_same hsame, writeEnded_of_erase (s := t) _ hx hextent]
        simp only [u, settled, hs]
        cases drain with
        | none => exact congrArg _ (answerErase_eq seq _ (staleSettled_extent e x false t))
        | some k => rfl
      · have hs : same = false := decide_eq_false hsame
        rw [compareReadBack_of_other hsame, writeEnded_of_erase (s := t) _ hx hextent]
        simp only [u, settled, hs]
        cases drain with
        | none =>
          refine congrArg _ ((answerErase_eq seq _ (staleSettled_extent e x true t)).trans ?_)
          simp only [hphase]
          rfl
        | some k => rfl
    · intro e hx
      by_cases hsame : got = o.bytes
      · rw [compareReadBack_of_same hsame, if_pos hsame, writeEnded_of_rewrap (s := t) _ hx]
        rfl
      · rw [compareReadBack_of_other hsame, if_neg hsame, writeEnded_of_rewrap (s := t) _ hx, hphase]
        rfl

end Sys2Proof.Machine
end

section
/-! PROOFS. Abandoned transactions (O54): how one goes on to its stop, and how its end ends the request. -/

namespace Sys2Proof.Machine

/-! ## To the stop of an abandoned transaction (R135) -/

section
variable {w : Transaction} {p : LinkPoint} {s : State}

/-- A transaction on its way to the stop of an abandonment: a WRITE RECORD has begun by then. -/
def woundDown (w : Transaction) : Transaction :=
  { w with writeBegun := w.writeBegun || decide (w.kind = .writeRecord), phase := 0 }

/-- The Link Master that makes the stop of an abandonment. -/
def stoppingLink (w : Transaction) (l : LinkMaster) : LinkMaster :=
  { l with state := .stop, transaction := some { woundDown w with stopCause := .abandonment } }

/-- What abandonment makes of a complete element: the stop, or the repeated start that comes before it. -/
theorem windDown_eq (w : Transaction) (s : State) :
    windDown w s =
      if restartsFirst s.link w then
        { s with link := { s.link with state := .restart, transaction := some (woundDown w) } }
      else { s with link := stoppingLink w s.link } := by
  have hbegun : begunBy w .finalStop = { w with writeBegun := w.writeBegun || decide (w.kind = .writeRecord) } := by
    simp [begunBy]
  simp only [windDown, hbegun]
  rfl

theorem restartsFirst_iff (l : LinkMaster) (w : Transaction) :
    restartsFirst l w = true ↔ w.kind = .writeRecord ∧ (l.state = .address ∨ l.state = .send) := by
  simp [restartsFirst]

/-- An element of an abandoned transaction that brings no byte is wound down as it is complete. -/
theorem completeElement_of_abandoning (ha : w.abandoning = true) (hp : ∀ k, p ≠ .receiveByte k) :
    completeElement w p s = windDown w s := by
  cases p
  case receiveByte k => exact absurd rfl (hp k)
  all_goals simp only [completeElement, ha, Bool.true_or, if_true, leaveElement]

/-- A byte that an abandoned transaction receives is placed in its record. -/
theorem completeElement_of_received (ha : w.abandoning = true) (k : Fin 100) :
    completeElement w (.receiveByte k) s =
      windDown { w with record := w.record ++ [Config.receivedByte s.draws] } { s with draws := s.draws + 1 } := by
  simp only [completeElement, leaveElement, ha, if_true]

/-- A byte is received in RECEIVE. -/
theorem currentElement_of_receive (h : s.link.state = .receive) :
    currentElement s.link w = .receiveByte w.position.byteIndex := by
  simp [currentElement, h, elementAt]

/-- And in no other state. -/
theorem elementAt_ne_receiveByte {st : LinkState} (h : st ≠ .receive) (q : Position) (k : Fin 100) :
    elementAt st q ≠ .receiveByte k := by
  unfold elementAt
  split
  case h_7 => exact absurd rfl h
  all_goals nofun

theorem currentElement_ne_receiveByte (h : s.link.state ≠ .receive) (k : Fin 100) :
    currentElement s.link w ≠ .receiveByte k := by
  unfold currentElement
  split
  · cases w.stopCause <;> nofun
  · exact elementAt_ne_receiveByte h w.position k

/-- The last step of an element of an abandoned transaction, but for one that brings a byte. -/
theorem advanceLink_of_abandoning (hw : s.link.transaction = some w) (ha : w.abandoning = true)
    (hl : s.link.state.holdsLink = true) (hs : s.link.state ≠ .stop) (hr : s.link.state ≠ .receive)
    (hn : (elementLines s.link w (currentElement s.link w)).length ≤ w.phase + 1) :
    advanceLink s = windDown w s := by
  rw [advanceLink_of_lastStep hw hl hs hn, completeElement_of_abandoning ha (currentElement_ne_receiveByte hr)]

/-- The last step of a byte that an abandoned transaction receives. -/
theorem advanceLink_of_received (hw : s.link.transaction = some w) (ha : w.abandoning = true)
    (hr : s.link.state = .receive)
    (hn : (elementLines s.link w (currentElement s.link w)).length ≤ w.phase + 1) :
    advanceLink s =
      { s with
        draws := s.draws + 1
        link := stoppingLink { w with record := w.record ++ [Config.receivedByte s.draws] } s.link } := by
  have hl : s.link.state.holdsLink = true := by rw [hr]; rfl
  have hs : s.link.state ≠ .stop := by rw [hr]; nofun
  have hno : ¬restartsFirst s.link { w with record := w.record ++ [Config.receivedByte s.draws] } = true := by
    simp [restartsFirst_iff, hr]
  rw [advanceLink_of_lastStep hw hl hs hn, currentElement_of_receive hr, completeElement_of_received ha,
    windDown_eq]
  exact if_neg hno

end

/-! ## The end of an abandoned transaction (R135) -/

section
variable {w : Transaction} {p : LinkPoint} {s : State}

theorem afterAbandonedStop_finalStopSent (l : LinkMaster) (w : Transaction) :
    (afterAbandonedStop l w).finalStopSent = true ↔
      w.finalStopSent = true ∨ (w.kind = .writeRecord ∧ l.state = .stop ∧ w.stopCause = .final) := by
  simp [afterAbandonedStop, and_assoc]

/-- Of the write facts, an abandoned request tells the phase alone. -/
theorem abandonedAs_congr {f g : WriteFacts} (h : f.phase = g.phase) (s : State) :
    abandonedAs f s = abandonedAs g s := by
  simp only [abandonedAs, h]

/-- The phase reached does not depend on the final stop. -/
theorem phase_afterAbandonedStop (l : LinkMaster) (w : Transaction) (o : Option WriteOperation) :
    (factsReached (afterAbandonedStop l w) o).phase = (factsReached (metAt .finalStop w) o).phase := by
  cases o with
  | none => rfl
  | some o =>
    have hbegun : (afterAbandonedStop l w).writeBegun = (metAt .finalStop w).writeBegun := rfl
    have hkind : (afterAbandonedStop l w).kind = (metAt .finalStop w).kind := rfl
    simp only [factsReached, hbegun, hkind]
    split_ifs <;> rfl

theorem exec_abandonedStopCompletes (hp : s.powered = true) (hw : s.link.transaction = some w)
    (ha : w.abandoning = true) (hl : s.link.state.holdsLink = true) :
    exec .abandonedStopCompletes s =
      .next (lockingStepIfDue
        (abandonedAs (factsReached (metAt .finalStop w) s.link.operation)
          { s with link := rested .idle .free false s.link })) := by
  refine (closingRule_of_powered _ hp).trans ?_
  simp only [abandonedStop, hw, ha, hl, Bool.and_self, if_true, endTransaction_abandoned]
  rw [abandonedAs_congr (phase_afterAbandonedStop s.link w _)]
  rfl

theorem canMeet_of_abandoning (l : LinkMaster) (ha : w.abandoning = true) (p : LinkPoint) :
    canMeet l w p = false := by
  simp [canMeet, ha]

/-- A stretch beyond the limit ends an abandoned transaction at once. -/
theorem exec_stretchTimeout_of_abandoning (hp : s.powered = true) (hw : s.link.transaction = some w)
    (ha : w.abandoning = true) (hm : canMeetAbandoning s.link w p = true) :
    exec (.stretchTimeout p) s =
      .next (lockingStepIfDue
        (abandonedAs (factsReached (metAt p w) s.link.operation)
          { s with link := rested .waitFree .busyOther true s.link })) := by
  have hresult : stretchResult w p = .abandoned := if_pos ha
  refine (closingRule_of_powered _ hp).trans ?_
  simp only [stretchOut, hw, hm, Bool.or_true, if_true, hresult, endTransaction_abandoned]
  rfl

/-- So does a collision that the part checks for. -/
theorem exec_collision_of_abandoning (rec : KeyRecord) (hp : s.powered = true) (hw : s.link.transaction = some w)
    (ha : w.abandoning = true) (hm : canMeetAbandoning s.link w p = true) (hk : checksLine s.link w p = true) :
    exec (.collision p rec) s =
      .next (lockingStepIfDue
        (abandonedAs (factsReached (metAt p w) s.link.operation)
          { s with link := rested .idle .busyOther s.link.releaseWatch s.link })) := by
  refine (closingRule_of_powered _ hp).trans ?_
  simp only [meetCollision, hw, hk, hm, canMeet_of_abandoning s.link ha, Bool.not_true, Bool.false_eq_true, if_false,
    if_true, endTransaction_abandoned]
  rfl

/-- A request that ends ABANDONED leaves the Job Table. -/
theorem abandonedAs_jobs (f : WriteFacts) (s : State) : (abandonedAs f s).jobs = s.jobs := by
  unfold abandonedAs
  simp only
  split
  any_goals rfl
  show (if _ then setFlag .storeStale _ else _ : State).jobs = s.jobs
  split_ifs <;> rfl

theorem abandonedAs_of_unlock {seq : Byte} {e : ExtentId} {d : Directions} {slot : Option SlotId} (f : WriteFacts)
    (hx : s.executing = some { seq := seq, request := .unlock e d slot }) :
    abandonedAs f s = ended .unlock seq .abandoned [] { s with slots := slotsGivenBack slot s } := by
  cases slot <;> simp only [abandonedAs, hx] <;> rfl

/-- An ERASE abandoned in a write that has begun leaves the store stale. -/
theorem abandonedAs_of_erase {seq : Byte} {e : ExtentId} {drain : Option SlotId} {x : Extent} {f : WriteFacts}
    (hx : s.executing = some { seq := seq, request := .erase e drain none }) (hextent : s.extents[e] = some x)
    (hf : f.phase = .uncertain) :
    abandonedAs f s =
      ended .erase seq .abandoned [item1 0x57 0x01, item1 0x60 0x02] (staleSettled e x true s) := by
  have hitem : staleItem e { s with extents := s.extents.set e (some { x with storeStale := true }) } =
      item1 0x57 0x01 := by
    simp only [staleItem, Fin.getElem_fin, Vector.getElem_set_self, Option.map_some, Option.getD_some]
    rfl
  simp only [abandonedAs, hx, hf, hextent, Option.map_some]
  exact congrArg (fun i => ended .erase seq .abandoned [i, item1 0x60 0x02] (staleSettled e x true s)) hitem

end

/-- Settles O54: every end of an abandoned transaction reaches its request as ABANDONED. -/
theorem abandonedStopEndsTheRequest : Obligations.AbandonedStopEndsTheRequest := by
  unfold Obligations.AbandonedStopEndsTheRequest
  refine ⟨?_, afterAbandonedStop_finalStopSent, ?_, ?_⟩
  · intro w s hw ha hl hs hn next stopping restarting
    by_cases hr : s.link.state = .receive
    · rw [advanceLink_of_received hw ha hr hn]
      rw [hr]
      rfl
    · rw [advanceLink_of_abandoning hw ha hl hs hr hn, windDown_eq]
      by_cases hfirst : restartsFirst s.link w = true
      · obtain ⟨hkind, hst | hst⟩ := (restartsFirst_iff s.link w).1 hfirst
        all_goals
          rw [if_pos hfirst, hst, hkind]
          rfl
      · rw [if_neg hfirst]
        split
        · next hst hkind => exact absurd ((restartsFirst_iff s.link w).2 ⟨hkind, .inl hst⟩) hfirst
        · next hst hkind => exact absurd ((restartsFirst_iff s.link w).2 ⟨hkind, .inr hst⟩) hfirst
        · next _ hst => exact absurd hst hr
        · rfl
  · intro w s hp hw ha hl ends
    refine ⟨exec_abandonedStopCompletes hp hw ha hl, fun p hm => ⟨?_, fun hk rec => ?_⟩⟩
    · exact exec_stretchTimeout_of_abandoning hp hw ha hm
    · exact exec_collision_of_abandoning rec hp hw ha hm hk
  · intro w seq s hp hw ha hl hjob t
    have hends : exec .abandonedStopCompletes s =
        .next (abandonedAs (factsReached (metAt .finalStop w) s.link.operation) t) := by
      have hjob' : ∃ i : TagId, (abandonedAs (factsReached (metAt .finalStop w) s.link.operation) t).jobs[i].isSome =
          true := by
        simp only [abandonedAs_jobs]
        exact hjob
      rw [exec_abandonedStopCompletes hp hw ha hl, lockingStepIfDue_of_job hjob']
    rw [hends]
    refine ⟨fun e d slot hx => ?_, fun e drain x o hx hextent hop hv hkind => ?_⟩
    · rw [abandonedAs_of_unlock (s := t) _ hx]
      rfl
    · have hphase : (factsReached (metAt .finalStop w) s.link.operation).phase = .uncertain := by
        simp [factsReached, hop, metAt, hkind, hv, WriteFacts.phase]
      rw [abandonedAs_of_erase (s := t) hx hextent hphase]
      rfl

end Sys2Proof.Machine
end

section
/-! PROOFS. Collisions (O44): the bytes that the part sends and the lines they make, where a collision is met, and
whether it counts as a loss or ends a read. -/

namespace Sys2Proof.Machine

/-! ## The bytes that the part sends (R121) -/

/-- The direction bit stands below the seven bits of the address. -/
theorem addressByte_eq (address : Byte) (read : Bool) :
    addressByte address read = BitVec.ofNat 8 (2 * address.toNat + if read then 1 else 0) := by
  have hdirection : (if read then 0x01 else 0x00 : Byte) = BitVec.ofNat 8 (if read then 1 else 0) := by
    cases read <;> rfl
  have hdisjoint : (address <<< 1) &&& BitVec.ofNat 8 (if read then 1 else 0) = 0#8 := by
    cases read
    · simp
    · ext i hi
      simp only [BitVec.getElem_and, BitVec.getElem_shiftLeft]
      cases i <;> simp
  rw [addressByte, hdirection, ← BitVec.add_eq_or_of_and_eq_zero _ _ hdisjoint]
  apply BitVec.eq_of_toNat_eq
  simp only [BitVec.toNat_add, BitVec.toNat_shiftLeft, BitVec.toNat_ofNat, Nat.shiftLeft_eq]
  omega

section
variable {l : LinkMaster} {w : Transaction} {p : LinkPoint}

theorem sentByte_handleByte (l : LinkMaster) (w : Transaction) :
    ∃ b, sentByte l w .handleByte = some b ∧ b.toNat = w.handle.val := by
  refine ⟨BitVec.ofNat 8 w.handle.val, rfl, ?_⟩
  rw [BitVec.toNat_ofNat]
  exact Nat.mod_eq_of_lt (by omega)

/-- The data bytes sent are those of the record written. -/
theorem sentByte_dataByte {r : KeyRecord} (l : LinkMaster) (k : Fin 100) (h : w.record = recordBytes r) :
    sentByte l w (.dataByte k) = (recordBytes r)[k.val]? := by
  have hk : k.val < (recordBytes r).length := by
    rw [recordBytes_length]
    exact k.isLt
  simp only [sentByte, h, List.getD_eq_getElem?_getD, List.getElem?_eq_getElem hk, Option.getD_some]

/-- The high half of a bit is ahead in every element to come, and in the one being made by its phase. -/
theorem bitAhead_iff (l : LinkMaster) (w : Transaction) (p : LinkPoint) (i : Nat) :
    bitAhead l w p i = true ↔ (p = currentElement l w → w.phase ≤ 2 * i + 1) := by
  simp only [bitAhead, Bool.or_eq_true, decide_eq_true_eq, ne_eq, imp_iff_not_or]

/-- In a byte that the part sends, it checks at the 1 bits that are ahead. -/
theorem checksLine_of_sent {b : Byte} (h : sentByte l w p = some b) :
    checksLine l w p = true ↔
      ∃ n, n < 8 ∧ b.getLsbD (7 - n) = true ∧ (p = currentElement l w → w.phase ≤ 2 * n + 1) := by
  simp only [checksLine, h, List.any_eq_true, List.mem_finRange, true_and, Bool.and_eq_true, bitAhead_iff]
  constructor
  · rintro ⟨i, hbit, hahead⟩
    refine ⟨i.val, i.isLt, ?_, hahead⟩
    simpa [BitVec.getMsbD] using hbit
  · rintro ⟨n, hn, hbit, hahead⟩
    refine ⟨⟨n, hn⟩, ?_, hahead⟩
    simpa [BitVec.getMsbD, hn] using hbit

theorem checksLine_of_notSent (h : sentByte l w p = none) : checksLine l w p = p.collisionPoint := by
  simp only [checksLine, h]

/-! ## The lines (R121) -/

/-- The steps of a byte that the part sends: its bits, and a released acknowledge bit. -/
theorem elementLines_of_sent {b : Byte} (h : sentByte l w p = some b) :
    elementLines l w p = byteLines (fun i => Drive.ofBit (b.getMsbD i.val)) .released := by
  cases p
  case writeAddress | readAddress | handleByte | dataByte => simp only [elementLines, h, Option.getD_some]
  all_goals exact absurd h nofun

/-- The acknowledge bit of a byte that the part receives. -/
theorem acknowledge_eq (w : Transaction) (k : Fin 100) :
    (if acknowledges w k then Drive.low else Drive.released) =
      if k.val = 99 ∨ w.abandoning = true then .released else .low := by
  by_cases hk : k.val = 99 <;> cases ha : w.abandoning <;> simp [acknowledges, hk, ha]

end

theorem drivenLines_released {s : State}
    (h : s.powered = false ∨ s.link.state.holdsLink = false ∨ s.link.transaction = none) :
    drivenLines s = Lines.released := by
  unfold drivenLines
  split
  · rfl
  · next x hx =>
    have hreleased : linesReleased s = true := by
      rcases h with h | h | h
      · simp [linesReleased, h]
      · simp [linesReleased, h]
      · simp [h] at hx
    rw [if_pos hreleased]

theorem drivenLines_held {s : State} {x : Transaction} (hp : s.powered = true)
    (hl : s.link.state.holdsLink = true) (hx : s.link.transaction = some x) :
    drivenLines s = (elementLines s.link x (currentElement s.link x)).getD x.phase Lines.released := by
  have hheld : linesReleased s = false := by simp [linesReleased, hp, hl]
  simp only [drivenLines, hx, hheld, Bool.false_eq_true, if_false]

/-! ## Losses (R131) -/

section
variable {w : Transaction} {p : LinkPoint} {s : State}

/-- A collision that the part checks for is met on a link that is BUSY_OTHER. -/
theorem exec_collision (rec : KeyRecord) (hp : s.powered = true) (hw : s.link.transaction = some w)
    (hm : canMeet s.link w p = true) (hk : checksLine s.link w p = true) :
    exec (.collision p rec) s = .next (lockingStepIfDue (collide (metAt p w) p rec (trackBusy s))) := by
  refine (closingRule_of_powered _ hp).trans ?_
  simp only [meetCollision, hw, hk, hm, Bool.not_true, Bool.false_eq_true, if_false, if_true]
  rfl

/-- A collision elsewhere is not seen. -/
theorem exec_collision_of_unchecked (rec : KeyRecord) (hp : s.powered = true) (hrun : s.power = .run)
    (hw : s.link.transaction = some w) (hk : checksLine s.link w p = false) :
    exec (.collision p rec) s = .next s := by
  refine (closingRule_of_powered _ hp).trans ?_
  simp only [meetCollision, hw, hk, Bool.not_false, if_true]
  rw [lockingStepIfDue_of_power (by rw [hrun]; nofun)]

/-- A received byte is checked only where it is the 100th. -/
theorem receiveByte_of_checked {k : Fin 100} (hk : checksLine s.link w (.receiveByte k) = true) : k = 99 :=
  Fin.ext (of_decide_eq_true (show decide (k.val = 99) = true from hk))

/-- Outside the stops of R127 and R128, and short of the end of a read, a collision loses the link. -/
theorem collide_of_loss (rec : KeyRecord) (u : State) (ha : p ≠ .addressStop) (hn : p ≠ .nackStop)
    (hread : w.kind = .readRecord → p ≠ .finalStop ∧ ∀ k, p ≠ .receiveByte k) :
    collide w p rec u = loseArbitration w u := by
  unfold collide
  split
  · next k hkind => exact absurd rfl ((hread hkind).2 k)
  · next hkind => exact absurd rfl (hread hkind).1
  · exact absurd rfl hn
  · exact absurd rfl ha
  · rfl

/-- Short of the 24th unacknowledged address, so does a collision in the stop after it. -/
theorem collide_of_addressStop (rec : KeyRecord) (u : State) (hn : w.addressAttempts < 23) :
    collide w .addressStop rec u = loseArbitration (unacknowledged w) u := by
  have hshort : w.addressAttempts + 1 ≠ maxAttempts := Nat.ne_of_lt (show w.addressAttempts + 1 < 24 by omega)
  unfold collide
  cases w.kind <;> simp only [hshort, if_false]

/-- The Link Master that has lost the link and waits for it with the whole transaction (R131). -/
def waitingAgain (w : Transaction) (l : LinkMaster) : LinkMaster :=
  { l with
    state := .waitFree, tracking := .busyOther
    freeWait := some l.settings.freeWaitLimit
    transaction := some
      { w with
        lossCount := w.lossCount + 1, position := .address, stopCause := .final, phase := 0
        record := if w.kind = .readRecord then [] else w.record } }

/-- A loss below the fourth begins the transaction anew, when the link is FREE again. -/
theorem loseArbitration_of_earlier (s : State) (h : w.lossCount < 3) :
    loseArbitration w (trackBusy s) = { s with link := waitingAgain w s.link } := by
  have h3 : w.lossCount < maxLosses := h
  simp only [loseArbitration, h3, if_true, beginAttempt_eq]
  rcases w with ⟨kind, _⟩
  cases kind <;> rfl

/-- A collision in an element that is no stop after a missing acknowledge, and no end of a read, counts a loss. -/
theorem exec_collision_of_loss (rec : KeyRecord) (hp : s.powered = true) (hrun : s.power = .run)
    (hw : s.link.transaction = some w) (hm : canMeet s.link w p = true) (hk : checksLine s.link w p = true)
    (hloss : w.lossCount < 3) (ha : p ≠ .addressStop) (hn : p ≠ .nackStop)
    (hread : w.kind = .readRecord → p ≠ .finalStop ∧ p ≠ .receiveByte 99) :
    exec (.collision p rec) s = .next { s with link := waitingAgain (metAt p w) s.link } := by
  have hread' : (metAt p w).kind = .readRecord → p ≠ .finalStop ∧ ∀ k, p ≠ .receiveByte k := by
    refine fun hkind => ⟨(hread hkind).1, ?_⟩
    rintro k rfl
    exact (hread hkind).2 (congrArg _ (receiveByte_of_checked hk))
  rw [exec_collision rec hp hw hm hk, collide_of_loss rec _ ha hn hread',
    loseArbitration_of_earlier (w := metAt p w) s hloss, lockingStepIfDue_of_power]
  simp [hrun]

/-- So does one in the stop after an unacknowledged address, which counts too. -/
theorem exec_collision_of_addressStop (rec : KeyRecord) (hp : s.powered = true) (hrun : s.power = .run)
    (hw : s.link.transaction = some w) (hm : canMeet s.link w .addressStop = true)
    (hloss : w.lossCount < 3) (hn : w.addressAttempts < 23) :
    exec (.collision .addressStop rec) s =
      .next
        { s with
          link :=
            waitingAgain { metAt .addressStop w with addressAttempts := w.addressAttempts + 1 } s.link } := by
  have hstop : unacknowledged (metAt .addressStop w) =
      { metAt .addressStop w with addressAttempts := w.addressAttempts + 1 } := by
    rw [unacknowledged, ← metAt_eq, begunBy_twice]
    rfl
  rw [exec_collision rec hp hw hm rfl, collide_of_addressStop (w := metAt .addressStop w) rec _ hn, hstop,
    loseArbitration_of_earlier (w := { metAt .addressStop w with addressAttempts := w.addressAttempts + 1 }) s hloss,
    lockingStepIfDue_of_power]
  simp [hrun]

/-! ## Reads that a collision completes (R132) -/

/-- Who can meet the last byte of a read can meet its stop. -/
theorem canMeet_finalStop {l : LinkMaster} (h : p = .finalStop ∨ p = .receiveByte 99) (hkind : w.kind = .readRecord)
    (hm : canMeet l w p = true) : canMeet l w .finalStop = true := by
  rcases h with rfl | rfl
  · exact hm
  · unfold canMeet at hm ⊢
    simp only [Bool.and_eq_true] at hm ⊢
    refine ⟨hm.1, ?_⟩
    have hahead := hm.2
    by_cases hst : l.state = .stop
    · rw [if_pos hst] at hahead
      cases hc : w.stopCause <;> simp [hc, StopCause.element] at hahead
    · rw [if_neg hst, hkind] at hahead ⊢
      revert hahead
      cases rankOf .readRecord (currentElement l w) with
      | none => nofun
      | some now =>
        intro hnow
        have hlast : now ≤ 104 := of_decide_eq_true hnow
        exact decide_eq_true (Nat.le_succ_of_le hlast)

/-- Both have a check for a collision in them. -/
theorem checksLine_of_readEnd {l : LinkMaster} (h : p = .finalStop ∨ p = .receiveByte 99) :
    checksLine l w p = true := by
  rcases h with rfl | rfl <;> rfl

theorem collide_of_readEnd (rec : KeyRecord) (u : State) (h : p = .finalStop ∨ p = .receiveByte 99)
    (hkind : w.kind = .readRecord) :
    collide w p rec u = endTransaction w (.readOk (completeRecord w rec)) .idle u := by
  rcases h with rfl | rfl <;> simp only [collide, hkind]

/-- A READ RECORD has no write to begin. -/
theorem metAt_of_read (p : LinkPoint) (hkind : w.kind = .readRecord) : metAt p w = w := by
  have hno : decide (w.kind = .writeRecord) = false := by simp [hkind]
  simp [metAt, hno]

/-- The end of a read leaves the power state. -/
theorem endTransaction_readOk_power (hkind : w.kind = .readRecord) (r : KeyRecord) (st : LinkState) (s : State) :
    (endTransaction w (.readOk r) st s).power = s.power := by
  rw [endTransaction_readOk hkind]
  cases s.link.operation with
  | none => exact readEnded_power _ _ _
  | some o => exact writeEnded_power _ _

/-- The end of a write operation on a link that is BUSY_OTHER. -/
theorem writeEnded_busied (v : WriteEnd) (watch : Bool) (u : State) (l : LinkMaster) (hl : l.transaction = none) :
    writeEnded v (relink { l with tracking := .busyOther, releaseWatch := watch } u) =
      busied watch (writeEnded v (relink l u)) := by
  rw [writeEnded_relink, writeEnded_relink, busied_none hl]

/-- A read that ends on a link that is BUSY_OTHER ends as on one that is FREE, and what it asks for waits. -/
theorem endTransaction_readOk_busied (hkind : w.kind = .readRecord) (r : KeyRecord) (s : State) :
    endTransaction w (.readOk r) .idle (trackBusy s) =
      busied s.link.releaseWatch (endTransaction w (.readOk r) .idle (trackFree s)) := by
  have hop : (trackBusy s).link.operation = s.link.operation := rfl
  have hop' : (trackFree s).link.operation = s.link.operation := rfl
  rw [endTransaction_readOk hkind, endTransaction_readOk hkind, hop, hop']
  cases s.link.operation with
  | none => exact readEnded_busied w.handle (.ok r) s.link.releaseWatch s (rested .idle .free false s.link) rfl
  | some o => exact writeEnded_busied (compareReadBack o r) s.link.releaseWatch s (rested .idle .free false s.link) rfl

/-- A collision at the end of a read ends it as its own stop would. -/
theorem exec_collision_of_readEnd (rec : KeyRecord) (hp : s.powered = true) (hrun : s.power = .run)
    (hw : s.link.transaction = some w) (h : p = .finalStop ∨ p = .receiveByte 99) (hkind : w.kind = .readRecord)
    (hm : canMeet s.link w p = true) :
    ∃ t, exec (.readRecordEnd rec) s = .next t ∧
      exec (.collision p rec) s = .next (busied s.link.releaseWatch t) := by
  refine ⟨endTransaction w (.readOk (completeRecord w rec)) .idle (trackFree s), ?_, ?_⟩
  · refine (rule_of_powered _ hp).trans ?_
    simp only [endRead, hw, if_pos (And.intro hkind (canMeet_finalStop h hkind hm))]
  · rw [exec_collision rec hp hw hm (checksLine_of_readEnd h), metAt_of_read p hkind, collide_of_readEnd rec _ h hkind,
      lockingStepIfDue_of_power, endTransaction_readOk_busied hkind]
    rw [endTransaction_readOk_power hkind]
    show s.power ≠ .quiescing
    simp [hrun]

end

/-- Settles O44: what the lines carry is read off the elements, and a collision is met where the part checks for one. -/
theorem collisionLosesOrCompletes : Obligations.CollisionLosesOrCompletes := by
  unfold Obligations.CollisionLosesOrCompletes
  refine ⟨?_, ?_, ?_, ?_⟩
  · intro w l p addressed
    refine ⟨congrArg some (addressByte_eq _ false), congrArg some (addressByte_eq _ true), sentByte_handleByte l w,
      fun r k => sentByte_dataByte l k, fun b => checksLine_of_sent, checksLine_of_notSent⟩
  · intro w l low high bit
    refine ⟨rfl, rfl, fun p hp => ?_, ?_, ?_⟩
    · simp only [List.mem_cons, List.not_mem_nil, or_false] at hp
      rcases hp with rfl | rfl | rfl <;> rfl
    · intro p b hb steps
      have hsteps : steps = byteLines (fun i => Drive.ofBit (b.getMsbD i.val)) .released := elementLines_of_sent hb
      obtain ⟨hlength, hacknowledge, hbits⟩ := byteLines_steps (fun i => Drive.ofBit (b.getMsbD i.val)) .released
      rw [hsteps]
      refine ⟨hlength, hacknowledge, fun n hn => ?_⟩
      have hbit : Drive.ofBit (b.getMsbD n) = if b.getLsbD (7 - n) then .released else .low := by
        simp [Drive.ofBit, BitVec.getMsbD, hn]
      rw [← hbit]
      exact hbits ⟨n, hn⟩
    · intro k steps
      have hsteps : steps = byteLines (fun _ => .released)
          (if k.val = 99 ∨ w.abandoning = true then .released else .low) := by
        rw [← acknowledge_eq]
        rfl
      rw [hsteps]
      obtain ⟨hlength, hacknowledge, hbits⟩ := byteLines_steps (fun _ => .released)
        (if k.val = 99 ∨ w.abandoning = true then .released else .low)
      exact ⟨hlength, hacknowledge, fun n hn => hbits ⟨n, hn⟩⟩
  · intro s free
    exact ⟨drivenLines_released, fun x => drivenLines_held⟩
  · intro w rec s hp hrun hw again
    refine ⟨fun p hm hloss hk ha hn hread => ?_, fun hm hloss hn => ?_, fun p hk => ?_, fun p hend hkind hm => ?_⟩
    · exact exec_collision_of_loss rec hp hrun hw hm hk hloss ha hn hread
    · exact exec_collision_of_addressStop rec hp hrun hw hm hloss hn
    · exact exec_collision_of_unchecked rec hp hrun hw hk
    · exact exec_collision_of_readEnd rec hp hrun hw hend hkind hm

end Sys2Proof.Machine
end

section
/-! PROOFS. Time: the tick, SET TICK and the expiry of idle timers (O47, O48), and what a step on an empty queue lets
pass (O2). -/

namespace Sys2Proof.Machine

/-! ## The tick (R138, R142) -/

section
variable {s : State}

theorem exec_tick (hp : s.powered = true) : exec .tick s = .next (takeTick s) := by
  rw [← reachPeriod_takes_the_tick]
  exact rule_of_powered reachPeriod hp

theorem takeTick_timer (s : State) (e : ExtentId) : (takeTick s).timers[e] = s.timers[e].lowered := by
  simp [takeTick]

theorem lowered_of_notCounting {t : IdleTimer} (h : ∀ n, t ≠ .counting n) : t.lowered = t := by
  cases t with
  | disarmed => rfl
  | suspended => rfl
  | counting n => exact absurd rfl (h n)

/-- As many periods as are left of the tick period take the tick; a divider past it takes the tick with one. -/
theorem countPeriod_iterate_takes_the_tick (s : State) :
    countPeriod^[s.tickPeriod.refclkPeriods - 1 - s.divider + 1] s = takeTick s := by
  have hpos := refclkPeriods_pos s.tickPeriod
  by_cases hd : s.divider < s.tickPeriod.refclkPeriods
  · rw [Function.iterate_succ_apply', countPeriod_iterate _ _ (by omega)]
    refine countPeriod_of_last ?_
    show s.tickPeriod.refclkPeriods ≤ s.divider + (s.tickPeriod.refclkPeriods - 1 - s.divider) + 1
    omega
  · rw [show s.tickPeriod.refclkPeriods - 1 - s.divider = 0 by omega]
    exact countPeriod_of_last (by omega)

theorem refclkPeriods_eq (p : TickPeriod) : p.refclkPeriods = 512 * 2 ^ p.code.toNat := by
  cases p <;> rfl

/-! ## SET TICK (R139) -/

theorem restarted_of_counting {t : IdleTimer} {n : Nat} (x : Extent) (h : t = .counting n) :
    restarted (some x) t = .counting (fullCount x.policy) := by
  subst h
  rfl

theorem restarted_of_notCounting {t : IdleTimer} (x : Option Extent) (h : ∀ n, t ≠ .counting n) :
    restarted x t = t := by
  cases t with
  | counting n => exact absurd rfl (h n)
  | disarmed => cases x <;> rfl
  | suspended => cases x <;> rfl

/-- The timers after a SET TICK: they restart where it carries a tick period. -/
def restartedTimers (p : Option TickPeriod) (s : State) : Vector IdleTimer 24 :=
  match p with
  | none => s.timers
  | some _ => Vector.ofFn fun i => restarted s.extents[i] s.timers[i]

theorem restartedTimers_of_carried {p : Option TickPeriod} (h : p.isSome = true) (s : State) (e : ExtentId) :
    (restartedTimers p s)[e] = restarted s.extents[e] s.timers[e] := by
  obtain ⟨q, rfl⟩ := Option.isSome_iff_exists.1 h
  simp [restartedTimers]

theorem applyTick_eq (a : TickArgs) (s : State) :
    applyTick a s =
      { s with
        tickPeriod := a.period.getD s.tickPeriod, drainLimit := a.drainLimit.getD s.drainLimit
        timers := restartedTimers a.period s
        divider := if a.period.isSome then 0 else s.divider } := by
  unfold applyTick
  cases a.period <;> rfl

theorem exec_setTick {r : Request} {a : TickArgs} (hs : Accepts s) (ha : tickArgs? r = some a) :
    exec (.setTick r) s =
      .next (sent (answerTo .setTick r .ok (tickItems (applyTick a s))) (applyTick a s)) := by
  refine (rule_takeRequest_of_accepts _ _ _ hs).trans ?_
  simp only [setTick, ha, answer_eq_sent]

end

/-- Settles O47: a TICK and the periods that are left of the tick period both take the tick, and SET TICK restarts what
is COUNTING where it carries a tick period. -/
theorem ticksCountAndRestart : Obligations.TicksCountAndRestart := by
  unfold Obligations.TicksCountAndRestart
  refine ⟨fun s hp => ?_, fun s hp => ?_, refclkPeriods_eq, ?_⟩
  · refine ⟨(takeTick s).timers, exec_tick hp, fun e => ?_⟩
    rw [takeTick_timer]
    refine ⟨fun n hn => ?_, fun h0 => ?_, lowered_of_notCounting⟩
    · rw [hn]
      rfl
    · rw [h0]
      rfl
  · rw [exec_tick hp, countPeriod_iterate_takes_the_tick]
    exact ⟨countPeriod_of_lt, fun h => by rw [countPeriod_of_last h], rfl⟩
  · intro r a s hs ha period limit
    refine ⟨restartedTimers a.period s, ?_, fun h => ?_, fun hcarried e => ?_⟩
    · rw [exec_setTick hs ha, applyTick_eq]
      rfl
    · rw [h]
      rfl
    · rw [restartedTimers_of_carried hcarried]
      refine ⟨fun n x hn hx => ?_, restarted_of_notCounting _⟩
      rw [hx, restarted_of_counting x hn]

/-! ## Expiry (R142 to R144) -/

section
variable {e : ExtentId} {x : Extent} {s : State}

theorem expire_of_notAtZero (h : s.timers[e] ≠ .counting 0) : expire e s = s := by
  unfold expire
  split
  · next h0 _ => exact absurd h0 h
  · rfl

theorem expire_of_lockOnce (ht : s.timers[e] = .counting 0) (hx : s.extents[e] = some x)
    (hm : x.policy.idleMode = .lockOnce) : expire e s = lockIdle e x s := by
  simp only [expire, ht, hx, hm]

theorem expire_of_noticeRepeat (ht : s.timers[e] = .counting 0) (hx : s.extents[e] = some x)
    (hm : x.policy.idleMode = .noticeRepeat) : expire e s = noticeIdle e x s := by
  simp only [expire, ht, hx, hm]

/-- What an expiry in LOCK_ONCE locks and releases, as a LOCK would ask for it: both directions, and no cut (R143). -/
def idleLockArgs (e : ExtentId) (x : Extent) : LockArgs :=
  { extent := e, dirs := { read := true, write := true }, forget := x.policy.forgetOnIdle, cut := false }

theorem locked_both (x : Extent) :
    x.locked { read := true, write := true } = { x with readLock := true, writeLock := true } := by
  simp [Extent.locked]

theorem lockedExtent_idle (e : ExtentId) (x : Extent) :
    lockedExtent (idleLockArgs e x) x =
      { x with
        readLock := true, writeLock := true
        key := if x.policy.forgetOnIdle = true ∧ x.key.isLive = true then .none else x.key } := by
  rw [lockedExtent, idleLockArgs, locked_both]

/-- The flag and the timer are written after the locks and the release. -/
theorem lockIdle_eq (hx : s.extents[e] = some x) :
    lockIdle e x s = setTimer e .disarmed (setFlag .idleLock (lockWritten (idleLockArgs e x) x s)) := by
  have hreleased : releaseIf x.policy.forgetOnIdle e
      (updateExtent e (Extent.locked { read := true, write := true }) s) =
        lockWritten (idleLockArgs e x) x s := releaseIf_locked (idleLockArgs e x) hx
  rw [← hreleased, updateExtent_of_defined _ hx, locked_both]
  rfl

end

/-- Settles O48: a timer at 0 expires by its extent's idle mode, and any other is left alone. -/
theorem expiryActsByIdleMode : Obligations.ExpiryActsByIdleMode := by
  unfold Obligations.ExpiryActsByIdleMode
  intro e s hp
  have hexpire : exec (.idleExpiry e) s = .next (expire e s) := rule_of_powered (expire e) hp
  rw [hexpire]
  refine ⟨fun h => by rw [expire_of_notAtZero h], fun x ht hx _ => ⟨fun hm => ?_, fun hm => ?_⟩⟩
  · rw [expire_of_lockOnce ht hx hm, lockIdle_eq hx, lockWritten, lockedExtent_idle]
    rfl
  · rw [expire_of_noticeRepeat ht hx hm]
    rfl

/-! ## A message that waits in the data channel (R12) -/

section
variable {s : State}

/-- Nothing is delivered where nothing waits, and nothing behind a withheld Sector In. -/
theorem deliverNext_of_held (h : s.inbound = [] ∨ s.withheld.isSome = true) : deliverNext s = s := by
  unfold deliverNext
  split
  · next hw hi => simp [hw, hi] at h
  · rfl

theorem deliverNext_of_waiting {m : DataMsg} {rest : List DataMsg} (hw : s.withheld = none)
    (hi : s.inbound = m :: rest) :
    deliverNext s = lockingStepIfDue (deliver m { s with inbound := rest }) := by
  simp only [deliverNext, hw, hi]

theorem timePasses_of_inert (h : s.powered = false) : timePasses s = s := by
  simp [timePasses, h]

theorem timePasses_of_powered (h : s.powered = true) :
    timePasses s = countPeriod (advanceLink (deliverNext s)) :=
  if_pos h

end

/-! ## An attempt that goes on (R125 to R128) -/

section
variable {s : State} {x : Transaction} {p q : LinkPoint}

theorem advanceLink_of_offLink (h : ∀ x, s.link.transaction = some x → s.link.state.holdsLink = false) :
    advanceLink s = s := by
  unfold advanceLink
  split
  · rfl
  · next x hx => simp [h x hx]

theorem advanceLink_of_earlierStep (hx : s.link.transaction = some x) (hl : s.link.state.holdsLink = true)
    (hn : x.phase + 1 < (elementLines s.link x (currentElement s.link x)).length) :
    advanceLink s =
      { s with link := { s.link with transaction := some { x with phase := x.phase + 1 } } } := by
  unfold advanceLink
  simp only [hx, hl, if_pos hn]
  rfl

theorem advanceLink_of_stop (hx : s.link.transaction = some x)
    (hn : (elementLines s.link x (currentElement s.link x)).length ≤ x.phase + 1)
    (hs : s.link.state = .stop) : advanceLink s = s := by
  unfold advanceLink
  simp only [hx, if_neg (Nat.not_lt.2 hn), if_pos hs, ite_self]

/-- Short of STOP, the element being made is the one whose place the attempt has reached. -/
theorem currentElement_of_place (hplace : placeOf p = (s.link.state, x.position))
    (hat : elementAt (placeOf p).1 (placeOf p).2 = p) (hs : (placeOf p).1 ≠ .stop) :
    currentElement s.link x = p := by
  rw [hplace] at hat hs
  exact (if_neg hs).trans hat

/-- Past its opening start a WRITE RECORD has begun. -/
theorem begunBy_of_later (x : Transaction) (h : p ≠ .openingStart) :
    begunBy x p = { x with writeBegun := x.writeBegun || decide (x.kind = .writeRecord) } := by
  simp [begunBy, h]

/-- The Link Master that goes on to an element past the opening start. -/
def goneOn (x : Transaction) (q : LinkPoint) (l : LinkMaster) : LinkMaster :=
  { l with
    state := (placeOf q).1
    transaction := some
      { x with
        position := (placeOf q).2, stopCause := .final, phase := 0
        writeBegun := x.writeBegun || decide (x.kind = .writeRecord) } }

/-- The Link Master that makes the stop after a byte that went unacknowledged. -/
def stoppedFor (x : Transaction) (cause : StopCause) (l : LinkMaster) : LinkMaster :=
  { l with
    state := .stop
    transaction := some
      { x with
        writeBegun := x.writeBegun || decide (x.kind = .writeRecord), stopCause := cause, phase := 0 } }

theorem leaveElement_of_next (ha : x.abandoning = false) (hnext : nextElement x.kind p = q)
    (hq : q ≠ .openingStart) (s : State) :
    leaveElement x p s = { s with link := goneOn x q s.link } := by
  have henter : leaveElement x p s = enterElement x q s := by
    rw [leaveElement, if_neg (Bool.eq_false_iff.1 ha), hnext]
  rw [henter, enterElement, begunBy_of_later x hq]
  rfl

theorem nackedStop_eq (hp : p ≠ .openingStart) (x : Transaction) (s : State) :
    nackedStop x p s =
      { s with
        link := stoppedFor x (if p = .writeAddress ∨ p = .readAddress then .address else .nack) s.link } := by
  simp only [nackedStop, begunBy_of_later x hp]
  rfl

/-- A byte that the device sends is placed at the end of the record, and the next element follows. -/
theorem completeElement_of_receivedByte {k : Fin 100} (ha : x.abandoning = false)
    (hnext : nextElement x.kind (.receiveByte k) = q) (hq : q ≠ .openingStart) :
    completeElement x (.receiveByte k) s =
      { s with
        draws := s.draws + 1
        link := goneOn { x with record := x.record ++ [Config.receivedByte s.draws] } q s.link } :=
  leaveElement_of_next (x := { x with record := x.record ++ [Config.receivedByte s.draws] }) ha hnext hq _

/-- After a byte that the part sends, the next element follows if the device acknowledges it, and else a stop. -/
theorem completeElement_of_sentByte (ha : x.abandoning = false) (hb : (sentByte s.link x p).isSome = true)
    (hp : p ≠ .openingStart) (hnext : nextElement x.kind p = q) (hq : q ≠ .openingStart) :
    completeElement x p s =
      { s with
        draws := s.draws + 1
        link :=
          if Config.deviceAcknowledges s.draws then goneOn x q s.link
          else stoppedFor x (if p = .writeAddress ∨ p = .readAddress then .address else .nack) s.link } := by
  have hanswer : completeElement x p s =
      if Config.deviceAcknowledges s.draws then leaveElement x p { s with draws := s.draws + 1 }
      else nackedStop x p { s with draws := s.draws + 1 } := by
    have hsent : ¬(x.abandoning || (sentByte s.link x p).isNone) = true := by
      rw [ha, ← Option.not_isSome, hb]
      decide
    unfold completeElement
    split
    · simp [sentByte] at hb
    · rw [if_neg hsent]
  rw [hanswer, leaveElement_of_next ha hnext hq, nackedStop_eq hp]
  split_ifs <;> rfl

/-- An element in which no byte is sent or received is followed by the next one. -/
theorem completeElement_of_noByte (ha : x.abandoning = false) (hb : sentByte s.link x p = none)
    (hr : ∀ k, p ≠ .receiveByte k) (hnext : nextElement x.kind p = q) (hq : q ≠ .openingStart) :
    completeElement x p s = { s with link := goneOn x q s.link } := by
  rw [← leaveElement_of_next ha hnext hq]
  unfold completeElement
  split
  · next k => exact absurd rfl (hr k)
  · rw [hb, Option.isNone_none, Bool.or_true, if_pos rfl]

end

/-- Settles O2: the message that waits, the link and the divider each go on by themselves; of an element that is
complete, whether its byte is sent, received or none decides what follows. -/
theorem emptyQueueLetsTimePass : Obligations.EmptyQueueLetsTimePass := by
  unfold Obligations.EmptyQueueLetsTimePass
  refine ⟨?_, fun m s => exec_sectorIn_of_clear m, fun s => rfl, fun s => advanceLink_of_offLink, ?_, ?_⟩
  · intro s hqueue counted
    have hcounted : ∀ t, countPeriod t = counted t := fun _ => rfl
    rw [step_of_empty hqueue]
    refine ⟨fun hp => ?_, fun hp hheld => ?_, fun m rest hp hw hi => ?_⟩
    · rw [timePasses_of_inert hp]
    · rw [timePasses_of_powered hp, deliverNext_of_held hheld, hcounted]
    · rw [timePasses_of_powered hp, deliverNext_of_waiting hw hi, hcounted]
  · intro s x hx hl steps
    exact ⟨advanceLink_of_earlierStep hx hl, advanceLink_of_stop hx⟩
  · intro s x i p q hx ha hp hq hplace hlast begun goesOn stopsFor answered
    obtain ⟨hat, hnext, hlater, hholds, hnoStop⟩ := elementsOf_consecutive hp hq
    have hcurrent : currentElement s.link x = p := currentElement_of_place hplace hat hnoStop
    have hstate : (placeOf p).1 = s.link.state := by rw [hplace]
    rw [hstate] at hholds hnoStop
    rw [advanceLink_of_lastStep hx hholds hnoStop (by rwa [hcurrent]), hcurrent]
    cases p
    case receiveByte k => exact completeElement_of_receivedByte ha hnext hlater
    case writeAddress | readAddress | handleByte | dataByte =>
      exact completeElement_of_sentByte ha rfl nofun hnext hlater
    case openingStart | repeatedStart | finalStop | addressStop | nackStop =>
      exact completeElement_of_noByte ha rfl nofun hnext hlater

end Sys2Proof.Machine
end

section
/-! PROOFS. ATTN (O57). A rule either changes neither the flags nor the supply lines nor ATTN, or it changes them by
setting or rewriting flags, and ATTN is brought up to date with them. Rule by rule: what each leaves of
AttnFollowsFlags. -/

namespace Sys2Proof.Machine

section

variable {s : State}

/-! ## Jobs and their sectors -/

theorem takeOpener_attn (m : OpenerMsg) (h : AttnFollowsFlags s) : AttnFollowsFlags (takeOpener m s) := by
  unfold takeOpener
  split
  · exact emitCloser_attn _ h
  · exact attnFollows_of_same h rfl rfl rfl rfl
  · exact attnFollows_of_same h rfl rfl rfl rfl

theorem takeSector_attn (t : TagId) (data : Bytes) (stored : Option SectorTag) (h : AttnFollowsFlags s) :
    AttnFollowsFlags (takeSector t data stored s) := by
  unfold takeSector
  split
  · exact listSector_attn _ _ _ _ h
  · split
    · exact attnFollows_of_same h rfl rfl rfl rfl
    · exact overrun_attn t h

theorem malformedSector_attn (t : TagId) (j : Job) (h : AttnFollowsFlags s) :
    AttnFollowsFlags (malformedSector t j s) :=
  closeIfDone_attn t (stopJob_attn t _ _ h)

theorem sectorOfActive_attn (t : TagId) (j : Job) (m : SectorInMsg) (h : AttnFollowsFlags s) :
    AttnFollowsFlags (sectorOfActive t j m s) := by
  have hmalformed := malformedSector_attn t j h
  unfold sectorOfActive
  split
  · exact hmalformed
  · split
    · exact hmalformed
    · split
      · exact attnFollows_of_same h rfl rfl rfl rfl
      · split
        · exact takeSector_attn t _ _ h
        · exact hmalformed

theorem deliverSector_attn (m : SectorInMsg) (h : AttnFollowsFlags s) : AttnFollowsFlags (deliverSector m s) := by
  have hstray : AttnFollowsFlags (stray s) := setFlag_follows .stray s
  unfold deliverSector
  split
  · exact hstray
  · split
    · exact hstray
    · split
      · exact h
      · split
        · exact hstray
        · exact sectorOfActive_attn _ _ m h

theorem deliver_attn (m : DataMsg) (h : AttnFollowsFlags s) : AttnFollowsFlags (deliver m s) := by
  cases m with
  | sector m => exact deliverSector_attn m h
  | unknown => exact setFlag_follows .stray s

theorem arriveData_attn (m : DataMsg) (h : AttnFollowsFlags s) : AttnFollowsFlags (arriveData m s) := by
  unfold arriveData
  split
  · exact deliver_attn m h
  · exact attnFollows_of_same h rfl rfl rfl rfl

theorem handOver_attn (p : PipeId) (h : AttnFollowsFlags s) : AttnFollowsFlags (handOver p s) := by
  unfold handOver
  split
  · split
    · exact h
    · split
      · split
        · split
          · exact attnFollows_of_same h rfl rfl rfl rfl
          · exact h
        · exact h
      · exact h
  · exact h

theorem takeResult_attn (p : Pass) (j : Job) (res : PassResult) (h : AttnFollowsFlags s) :
    AttnFollowsFlags (takeResult p j res s) := by
  have hfreed : AttnFollowsFlags (releaseBuffer p.buffer (setJob p.tag (some j) s)) :=
    releaseBuffer_attn _ (attnFollows_of_same h rfl rfl rfl rfl)
  unfold takeResult
  split
  · split
    · exact attnFollows_of_same h rfl rfl rfl rfl
    · split
      · exact attnFollows_of_same h rfl rfl rfl rfl
      · exact stopJob_attn _ _ _ hfreed
  · exact hfreed

theorem completePass_attn (i : PipeId) (h : AttnFollowsFlags s) : AttnFollowsFlags (completePass i s) := by
  unfold completePass
  split
  · exact h
  · next p _ =>
    have hcounted := countUse_attn p.slot h
    simp only
    split
    · exact attnFollows_of_same (releaseBuffer_attn p.buffer hcounted) rfl rfl rfl rfl
    · refine closeIfDone_attn _ ?_
      exact attnFollows_of_same (takeResult_attn p _ _ hcounted) rfl rfl rfl rfl

theorem acceptSector_attn (t : TagId) (h : AttnFollowsFlags s) : AttnFollowsFlags (acceptSector t s) := by
  unfold acceptSector
  split
  · exact h
  · split
    · split
      · exact closeIfDone_attn t (attnFollows_of_same h rfl rfl rfl rfl)
      · exact h
    · split
      · exact h
      · exact closeIfDone_attn t (releaseBuffer_attn _ (attnFollows_of_same h rfl rfl rfl rfl))

/-! ## The Extent Table -/

theorem setNamespace_attn (r : Request) (h : AttnFollowsFlags s) : AttnFollowsFlags (setNamespace r s) := by
  unfold setNamespace
  split
  · exact attnFollows_of_same h rfl rfl rfl rfl
  · next a _ =>
    split
    · exact attnFollows_of_same h rfl rfl rfl rfl
    · have happlied : AttnFollowsFlags (applyNamespace a s) := by
        unfold applyNamespace
        simp only
        split <;> exact attnFollows_of_same h rfl rfl rfl rfl
      exact attnFollows_of_same happlied rfl rfl rfl rfl

theorem defineExtent_attn (r : Request) (h : AttnFollowsFlags s) : AttnFollowsFlags (defineExtent r s) := by
  unfold defineExtent
  split
  · exact attnFollows_of_same h rfl rfl rfl rfl
  · split <;> exact attnFollows_of_same h rfl rfl rfl rfl

theorem retireExtent_attn (r : Request) (h : AttnFollowsFlags s) : AttnFollowsFlags (retireExtent r s) := by
  unfold retireExtent
  split
  · exact attnFollows_of_same h rfl rfl rfl rfl
  · split <;> exact attnFollows_of_same h rfl rfl rfl rfl

theorem policyToSlot_attn (u : PolicyUpdate) (k : SlotId) (h : AttnFollowsFlags s) :
    AttnFollowsFlags (policyToSlot u k s) := by
  unfold policyToSlot
  simp only
  split
  · exact setFlag_follows _ _
  · exact attnFollows_of_same h rfl rfl rfl rfl

theorem setPolicy_attn (r : Request) (h : AttnFollowsFlags s) : AttnFollowsFlags (setPolicy r s) := by
  unfold setPolicy
  split
  · exact attnFollows_of_same h rfl rfl rfl rfl
  · next a _ =>
    split
    · exact attnFollows_of_same h rfl rfl rfl rfl
    · exact attnFollows_of_same h rfl rfl rfl rfl
    · next x _ _ =>
      have happlied : AttnFollowsFlags (applyPolicy a x s) := by
        unfold applyPolicy
        simp only
        split
        · exact policyToSlot_attn _ _ (attnFollows_of_same h rfl rfl rfl rfl)
        · exact attnFollows_of_same h rfl rfl rfl rfl
      exact attnFollows_of_same happlied rfl rfl rfl rfl

theorem queryExtent_attn (r : Request) (h : AttnFollowsFlags s) : AttnFollowsFlags (queryExtent r s) := by
  unfold queryExtent
  split
  · exact attnFollows_of_same h rfl rfl rfl rfl
  · split <;> exact attnFollows_of_same h rfl rfl rfl rfl

theorem querySlot_attn (r : Request) (h : AttnFollowsFlags s) : AttnFollowsFlags (querySlot r s) := by
  unfold querySlot
  split <;> exact attnFollows_of_same h rfl rfl rfl rfl

/-! ## Requests that reach keys -/

theorem beginAttempt_attn (x : Transaction) (h : AttnFollowsFlags s) : AttnFollowsFlags (beginAttempt x s) := by
  rw [beginAttempt_eq]
  exact attnFollows_of_same h rfl rfl rfl rfl

theorem startRead_attn (n : Handle) (h : AttnFollowsFlags s) : AttnFollowsFlags (startRead n s) := by
  rw [startRead_eq]
  exact attnFollows_of_same h rfl rfl rfl rfl

theorem startWrite_attn (n : Handle) (r : KeyRecord) (h : AttnFollowsFlags s) :
    AttnFollowsFlags (startWrite n r s) := by
  rw [startWrite_eq]
  exact attnFollows_of_same h rfl rfl rfl rfl

theorem releaseExtent_attn (c : ReleaseCause) (e : ExtentId) (h : AttnFollowsFlags s) :
    AttnFollowsFlags (releaseExtent c e s) := by
  rw [releaseExtent_changes]
  exact attnFollows_of_same h rfl rfl rfl rfl

theorem loadKey_attn (k : SlotId) (e : ExtentId) (key : LoadedKey) (h : AttnFollowsFlags s) :
    AttnFollowsFlags (loadKey k e key s) := by
  unfold loadKey
  split
  · exact h
  · exact attnFollows_of_same h rfl rfl rfl rfl

theorem cutIf_attn (cut : Bool) (named : Job → Bool) (r : CutReason) (h : AttnFollowsFlags s) :
    AttnFollowsFlags (cutIf cut named r s) := by
  unfold cutIf
  split
  · exact cutJobs_attn named r h
  · exact h

theorem unlock_attn (r : Request) (h : AttnFollowsFlags s) : AttnFollowsFlags (unlock r s) := by
  unfold unlock
  split
  · exact attnFollows_of_same h rfl rfl rfl rfl
  · next a _ =>
    split
    · exact attnFollows_of_same h rfl rfl rfl rfl
    · next x _ =>
      split
      · exact attnFollows_of_same h rfl rfl rfl rfl
      · have hallocated : AttnFollowsFlags (allocateIf (unlockSlot x s) a.extent s) := by
          cases unlockSlot x s with
          | none => exact h
          | some k => exact attnFollows_of_same h rfl rfl rfl rfl
        exact startRead_attn _ (attnFollows_of_same hallocated rfl rfl rfl rfl)

theorem lock_attn (r : Request) (h : AttnFollowsFlags s) : AttnFollowsFlags (lock r s) := by
  unfold lock
  split
  · exact attnFollows_of_same h rfl rfl rfl rfl
  · next a _ =>
    split
    · exact attnFollows_of_same h rfl rfl rfl rfl
    · have hcut := cutIf_attn a.cut (lockNames a) .cutLock h
      have hreleased : ∀ u, AttnFollowsFlags u → AttnFollowsFlags (releaseIf a.forget a.extent u) := by
        intro u hu
        cases a.forget with
        | false => exact hu
        | true => exact releaseExtent_attn .forget a.extent hu
      unfold carryOutLock
      simp only
      generalize cutIf a.cut (lockNames a) .cutLock s = u at hcut ⊢
      have hlocked : AttnFollowsFlags (updateExtent a.extent (Extent.locked a.dirs) u) :=
        attnFollows_of_same hcut rfl rfl rfl rfl
      exact attnFollows_of_same (hreleased _ hlocked) rfl rfl rfl rfl

theorem rewrap_attn (r : Request) (h : AttnFollowsFlags s) : AttnFollowsFlags (rewrap r s) := by
  unfold rewrap
  split
  · exact attnFollows_of_same h rfl rfl rfl rfl
  · split
    · exact attnFollows_of_same h rfl rfl rfl rfl
    · split
      · exact attnFollows_of_same h rfl rfl rfl rfl
      · exact startRead_attn _ (attnFollows_of_same h rfl rfl rfl rfl)

theorem erase_attn (r : Request) (h : AttnFollowsFlags s) : AttnFollowsFlags (erase r s) := by
  unfold erase
  split
  · exact attnFollows_of_same h rfl rfl rfl rfl
  · next a _ =>
    split
    · exact attnFollows_of_same h rfl rfl rfl rfl
    · have hcut := cutIf_attn a.cut (fun j => decide (j.extent = a.extent)) .cutErase h
      unfold carryOutErase
      simp only
      generalize cutIf a.cut _ .cutErase s = u at hcut ⊢
      have hreleased := releaseExtent_attn .erase a.extent hcut
      generalize releaseExtent .erase a.extent u = v at hreleased ⊢
      exact startWrite_attn _ _ (attnFollows_of_same hreleased rfl rfl rfl rfl)

theorem generate_attn (r : Request) (h : AttnFollowsFlags s) : AttnFollowsFlags (generate r s) := by
  unfold generate
  split
  · exact attnFollows_of_same h rfl rfl rfl rfl
  · split
    · exact attnFollows_of_same h rfl rfl rfl rfl
    · unfold generateOn
      split
      · exact attnFollows_of_same h rfl rfl rfl rfl
      · split
        · exact attnFollows_of_same h rfl rfl rfl rfl
        · split
          · exact attnFollows_of_same h rfl rfl rfl rfl
          · exact startWrite_attn _ _ (attnFollows_of_same h rfl rfl rfl rfl)

/-! ## The other requests -/

theorem setLink_attn (r : Request) (h : AttnFollowsFlags s) : AttnFollowsFlags (setLink r s) := by
  have hdrop : ∀ u, AttnFollowsFlags u → AttnFollowsFlags (dropWithheld u) := by
    intro u hu
    unfold dropWithheld
    split
    · exact overrun_attn _ (attnFollows_of_same hu rfl rfl rfl rfl)
    · exact hu
  unfold setLink
  split
  · exact attnFollows_of_same h rfl rfl rfl rfl
  · next a _ =>
    have happlied : AttnFollowsFlags (applyLink a s) := hdrop _ (attnFollows_of_same h rfl rfl rfl rfl)
    exact attnFollows_of_same happlied rfl rfl rfl rfl

theorem setTick_attn (r : Request) (h : AttnFollowsFlags s) : AttnFollowsFlags (setTick r s) := by
  unfold setTick
  split
  · exact attnFollows_of_same h rfl rfl rfl rfl
  · next a _ =>
    rw [applyTick_eq]
    exact attnFollows_of_same h rfl rfl rfl rfl

theorem identify_attn (r : Request) (h : AttnFollowsFlags s) : AttnFollowsFlags (identify r s) := by
  unfold identify
  split <;> exact attnFollows_of_same h rfl rfl rfl rfl

theorem clearListed_follows (fs : List Flag) (s : State) : AttnFollowsFlags (clearListed fs s) :=
  mapFlags_follows _ s

theorem writeEnables_follows (es : List (Flag × Bool)) (s : State) : AttnFollowsFlags (writeEnables es s) :=
  mapFlags_follows _ s

/-- The requests that rewrite the flags bring ATTN up to date with them. -/
theorem readEvents_attn (r : Request) (h : AttnFollowsFlags s) : AttnFollowsFlags (readEvents r s) := by
  unfold readEvents
  split
  · exact attnFollows_of_same (mapFlags_follows (fun _ f => f.reported) s) rfl rfl rfl rfl
  · exact attnFollows_of_same h rfl rfl rfl rfl

theorem clearEvents_attn (r : Request) (h : AttnFollowsFlags s) : AttnFollowsFlags (clearEvents r s) := by
  unfold clearEvents
  split
  · exact attnFollows_of_same h rfl rfl rfl rfl
  · next fs _ =>
    exact attnFollows_of_same (clearListed_follows fs s) rfl rfl rfl rfl

theorem setEventEnables_attn (r : Request) (h : AttnFollowsFlags s) :
    AttnFollowsFlags (setEventEnables r s) := by
  unfold setEventEnables
  split
  · exact attnFollows_of_same h rfl rfl rfl rfl
  · next es _ =>
    exact attnFollows_of_same (writeEnables_follows es s) rfl rfl rfl rfl

/-- A request is answered, or reaches its own rule (R148, R149). -/
theorem takeRequest_attn (n : RequestName) (seq : Byte) {own : State → State} (h : AttnFollowsFlags s)
    (hown : AttnFollowsFlags (own s)) : AttnFollowsFlags (takeRequest n seq own s) := by
  unfold takeRequest
  split
  · exact attnFollows_of_same h rfl rfl rfl rfl
  · split
    · exact hown
    · split
      · exact attnFollows_of_same h rfl rfl rfl rfl
      · exact hown

/-! ## The ends of transactions -/

theorem freeAllocated_attn (k : Option SlotId) (h : AttnFollowsFlags s) :
    AttnFollowsFlags (freeAllocated k s) := by
  rw [freeAllocated_eq]
  exact attnFollows_of_same h rfl rfl rfl rfl

theorem countTry_attn (e : ExtentId) (h : AttnFollowsFlags s) : AttnFollowsFlags (countTry e s) := by
  unfold countTry
  split
  · exact h
  · simp only
    split
    · exact setFlag_follows _ _
    · exact attnFollows_of_same h rfl rfl rfl rfl

theorem endRequest_attn (n : RequestName) (seq : Byte) (c : ResultCode) (items : List Item)
    (h : AttnFollowsFlags s) : AttnFollowsFlags (endRequest n seq c items s) :=
  attnFollows_of_same h rfl rfl rfl rfl

theorem unlockEnd_attn (seq : Byte) (e : ExtentId) (d : Directions) (slot : Option SlotId) (v : Verdict)
    (h : AttnFollowsFlags s) : AttnFollowsFlags (unlockEnd seq e d slot v s) := by
  have hfreed := freeAllocated_attn slot h
  cases v with
  | sound k =>
    refine endRequest_attn _ _ _ _ ?_
    cases slot with
    | none => exact attnFollows_of_same h rfl rfl rfl rfl
    | some n => exact attnFollows_of_same (loadKey_attn n e k h) rfl rfl rfl rfl
  | badCredential => exact endRequest_attn _ _ _ _ (countTry_attn e hfreed)
  | keyVoid => exact endRequest_attn _ _ _ _ hfreed
  | recordBad => exact endRequest_attn _ _ _ _ hfreed
  | link f => exact endRequest_attn _ _ _ _ hfreed

theorem rewrapProof_attn (seq : Byte) (e : ExtentId) (n : Handle) (old new : Credential)
    (read : Except LinkFailure KeyRecord) (h : AttnFollowsFlags s) :
    AttnFollowsFlags (rewrapProof seq e n old new read s) := by
  unfold rewrapProof
  split
  · simp only
    split
    · unfold rewrapWrite
      exact startWrite_attn _ _ (attnFollows_of_same h rfl rfl rfl rfl)
    · exact attnFollows_of_same h rfl rfl rfl rfl
  · exact endRequest_attn _ _ _ _ (countTry_attn e h)
  · exact endRequest_attn _ _ _ _ h

theorem readEnded_attn (n : Handle) (read : Except LinkFailure KeyRecord) (h : AttnFollowsFlags s) :
    AttnFollowsFlags (readEnded n read s) := by
  unfold readEnded
  split
  · split
    · exact unlockEnd_attn _ _ _ _ _ h
    · exact h
  · split
    · exact rewrapProof_attn _ _ _ _ _ _ h
    · exact h
  · exact h

theorem settleStale_attn (e : ExtentId) (stale : Bool) (h : AttnFollowsFlags s) :
    AttnFollowsFlags (settleStale e stale s) := by
  cases stale with
  | false => exact attnFollows_of_same h rfl rfl rfl rfl
  | true => exact setFlag_follows .storeStale _

theorem eraseWritten_attn (seq : Byte) (e : ExtentId) (drain : Option SlotId) (w : WriteEnd)
    (h : AttnFollowsFlags s) : AttnFollowsFlags (eraseWritten seq e drain w s) := by
  have hsettled := settleStale_attn e (decide (w.outcome ≠ .verified)) h
  cases drain with
  | none => exact answerErase_attn _ _ _ hsettled
  | some k => exact attnFollows_of_same hsettled rfl rfl rfl rfl

theorem generateEnd_attn (seq : Byte) (e : ExtentId) (d : Directions) (slot : SlotId) (w : WriteEnd)
    (h : AttnFollowsFlags s) : AttnFollowsFlags (generateEnd seq e d slot w s) := by
  unfold generateEnd
  split
  · next k _ _ =>
    have hloaded : AttnFollowsFlags (generateLoad e d slot k s) :=
      attnFollows_of_same (loadKey_attn slot e k h) rfl rfl rfl rfl
    exact endRequest_attn _ _ _ _ hloaded
  · exact attnFollows_of_same h rfl rfl rfl rfl

theorem writeEnded_attn (w : WriteEnd) (h : AttnFollowsFlags s) : AttnFollowsFlags (writeEnded w s) := by
  unfold writeEnded
  split
  · exact endRequest_attn _ _ _ _ h
  · exact eraseWritten_attn _ _ _ _ h
  · exact generateEnd_attn _ _ _ _ _ h
  · exact h

theorem requestAbandoned_attn (facts : WriteFacts) (h : AttnFollowsFlags s) :
    AttnFollowsFlags (requestAbandoned facts s) := by
  unfold requestAbandoned
  split
  · exact h
  · next seq r _ =>
    cases r with
    | unlock e d slot => exact endRequest_attn _ _ _ _ (freeAllocated_attn slot h)
    | rewrap e proven => exact endRequest_attn _ _ _ _ h
    | erase e drain written => exact endRequest_attn _ _ _ _ (settleStale_attn e _ h)
    | generate e d slot => exact attnFollows_of_same h rfl rfl rfl rfl

/-- However a transaction ends, and whatever that means for its request. -/
theorem endTransaction_attn (x : Transaction) (r : TransactionResult) (rest : LinkState)
    (h : AttnFollowsFlags s) : AttnFollowsFlags (endTransaction x r rest s) := by
  have hrest : ∀ op, AttnFollowsFlags (clearTransaction rest op s) := fun op =>
    attnFollows_of_same h rfl rfl rfl rfl
  have hflagged : ∀ f op, AttnFollowsFlags (flagFailure (.failed f) (clearTransaction rest op s)) := fun f op =>
    setFlag_follows .linkFail _
  unfold endTransaction
  simp only
  split
  · exact readEnded_attn _ _ (hrest none)
  · exact writeEnded_attn _ (hrest none)
  · exact startRead_attn _ (hrest _)
  · exact readEnded_attn _ _ (hflagged _ none)
  · exact writeEnded_attn _ (hflagged _ none)
  · exact requestAbandoned_attn _ (hrest none)

/-! ## Events of the link -/

theorem track_attn (v : Tracking) (watch : Bool) (h : AttnFollowsFlags s) :
    AttnFollowsFlags (track v watch s) :=
  attnFollows_of_same h rfl rfl rfl rfl

theorem linkFree_attn (h : AttnFollowsFlags s) : AttnFollowsFlags (linkFree s) := by
  rw [linkFree_changes]
  exact attnFollows_of_same h rfl rfl rfl rfl

theorem endRead_attn (rest : KeyRecord) (h : AttnFollowsFlags s) : AttnFollowsFlags (endRead rest s) := by
  unfold endRead
  split
  · exact h
  · split
    · exact endTransaction_attn _ _ _ (track_attn .free false h)
    · exact h

theorem endWrite_attn (h : AttnFollowsFlags s) : AttnFollowsFlags (endWrite s) := by
  unfold endWrite
  split
  · exact h
  · split
    · exact endTransaction_attn _ _ _ (track_attn .free false h)
    · exact h

theorem addressNacked_attn (h : AttnFollowsFlags s) : AttnFollowsFlags (addressNacked s) := by
  unfold addressNacked
  split
  · exact h
  · split
    · simp only
      split
      · exact endTransaction_attn _ _ _ (track_attn .free false h)
      · exact attnFollows_of_same h rfl rfl rfl rfl
    · exact h

theorem endPollWait_attn (h : AttnFollowsFlags s) : AttnFollowsFlags (endPollWait s) := by
  unfold endPollWait
  split
  · exact beginAttempt_attn _ h
  · exact h

theorem dataNacked_attn (b : NackedByte) (h : AttnFollowsFlags s) : AttnFollowsFlags (dataNacked b s) := by
  unfold dataNacked
  split
  · exact h
  · split
    · exact endTransaction_attn _ _ _ (track_attn .free false h)
    · exact h

theorem stretchOut_attn (p : LinkPoint) (h : AttnFollowsFlags s) : AttnFollowsFlags (stretchOut p s) := by
  unfold stretchOut
  split
  · exact h
  · split
    · exact endTransaction_attn _ _ _ (track_attn .busyOther true h)
    · exact h

theorem loseArbitration_attn (x : Transaction) (h : AttnFollowsFlags s) :
    AttnFollowsFlags (loseArbitration x s) := by
  unfold loseArbitration
  split
  · exact beginAttempt_attn _ h
  · exact endTransaction_attn _ _ _ h

theorem collide_attn (x : Transaction) (p : LinkPoint) (rest : KeyRecord) (h : AttnFollowsFlags s) :
    AttnFollowsFlags (collide x p rest s) := by
  unfold collide
  split
  · exact endTransaction_attn _ _ _ h
  · exact endTransaction_attn _ _ _ h
  · exact endTransaction_attn _ _ _ h
  · split
    · exact endTransaction_attn _ _ _ h
    · exact loseArbitration_attn _ h
  · exact loseArbitration_attn _ h

theorem meetCollision_attn (p : LinkPoint) (rest : KeyRecord) (h : AttnFollowsFlags s) :
    AttnFollowsFlags (meetCollision p rest s) := by
  have hbusy : AttnFollowsFlags (trackBusy s) := track_attn .busyOther s.link.releaseWatch h
  unfold meetCollision
  split
  · exact h
  · split
    · exact h
    · split
      · exact collide_attn _ _ _ hbusy
      · split
        · exact endTransaction_attn _ _ _ hbusy
        · exact h

theorem freeWaitEnds_attn (h : AttnFollowsFlags s) : AttnFollowsFlags (freeWaitEnds s) := by
  unfold freeWaitEnds
  split
  · exact endTransaction_attn _ _ _ h
  · exact h

theorem quiet_attn (h : AttnFollowsFlags s) : AttnFollowsFlags (quiet s) := by
  unfold quiet
  split
  · exact linkFree_attn h
  · exact h

theorem abandonedStop_attn (h : AttnFollowsFlags s) : AttnFollowsFlags (abandonedStop s) := by
  unfold abandonedStop
  split
  · exact h
  · split
    · exact endTransaction_attn _ _ _ (track_attn .free false h)
    · exact h

/-! ## Timers, the Random Source and time -/

theorem countPeriod_attn (h : AttnFollowsFlags s) : AttnFollowsFlags (countPeriod s) := by
  unfold countPeriod
  split <;> exact attnFollows_of_same h rfl rfl rfl rfl

theorem expire_attn (e : ExtentId) (h : AttnFollowsFlags s) : AttnFollowsFlags (expire e s) := by
  have hset : ∀ (f : Flag) (t : IdleTimer) (u : State), AttnFollowsFlags (setTimer e t (setFlag f u)) := fun f t u =>
    attnFollows_of_same (setFlag_follows f u) rfl rfl rfl rfl
  unfold expire
  split
  · split
    · exact hset .idleLock _ _
    · exact hset .idleNotice _ _
    · exact h
  · exact h

theorem takeSample_attn (h : AttnFollowsFlags s) : AttnFollowsFlags (takeSample s) := by
  unfold takeSample
  split
  · exact attnFollows_of_same h rfl rfl rfl rfl
  · exact h

theorem endWarmUp_attn (h : AttnFollowsFlags s) : AttnFollowsFlags (endWarmUp s) := by
  unfold endWarmUp
  split
  · exact attnFollows_of_same h rfl rfl rfl rfl
  · exact h

theorem failRepetition_attn (h : AttnFollowsFlags s) : AttnFollowsFlags (failRepetition s) := by
  unfold failRepetition
  split
  · exact h
  · exact setFlag_follows .randomFail _

theorem timePasses_attn (h : AttnFollowsFlags s) : AttnFollowsFlags (timePasses s) := by
  have hdelivered : AttnFollowsFlags (deliverNext s) := by
    unfold deliverNext
    split
    · exact lockingStepIfDue_attn (deliver_attn _ (attnFollows_of_same h rfl rfl rfl rfl))
    · exact h
  have hadvanced : AttnFollowsFlags (advanceLink (deliverNext s)) := by
    rw [advanceLink_changes]
    exact attnFollows_of_same hdelivered rfl rfl rfl rfl
  unfold timePasses
  split
  · exact countPeriod_attn hadvanced
  · exact h

/-! ## Power -/

theorem abandonRequest_attn (h : AttnFollowsFlags s) : AttnFollowsFlags (abandonRequest s) := by
  unfold abandonRequest
  split
  · exact h
  · split
    · exact requestAbandoned_attn _ h
    · split
      · exact attnFollows_of_same h rfl rfl rfl rfl
      · exact endTransaction_attn _ _ _ h

theorem beginHoldEntry_attn (h : AttnFollowsFlags s) : AttnFollowsFlags (beginHoldEntry s) := by
  have habandoned : AttnFollowsFlags (abandonRequest { s with power := .quiescing }) :=
    abandonRequest_attn (attnFollows_of_same h rfl rfl rfl rfl)
  exact attnFollows_of_same habandoned rfl rfl rfl rfl

theorem endSelfCheck_attn (h : AttnFollowsFlags s) : AttnFollowsFlags (endSelfCheck s) := by
  unfold endSelfCheck
  split
  · exact h
  · split
    · split
      · exact beginHoldEntry_attn (attnFollows_of_same h rfl rfl rfl rfl)
      · exact attnFollows_of_same h rfl rfl rfl rfl
    · exact attnFollows_of_same h rfl rfl rfl rfl

theorem endCheck_attn (p : PipeId) (passed : Bool) (h : AttnFollowsFlags s) :
    AttnFollowsFlags (endCheck p passed s) := by
  unfold endCheck
  split
  · refine endSelfCheck_attn ?_
    cases passed with
    | true => exact attnFollows_of_same h rfl rfl rfl rfl
    | false => exact setFlag_follows .selfCheckFail _
  · exact h

theorem expireDrain_attn (h : AttnFollowsFlags s) : AttnFollowsFlags (expireDrain s) := by
  unfold expireDrain
  split
  · simp only
    split
    · exact attnFollows_of_same h rfl rfl rfl rfl
    · exact setFlag_follows .holdCut _
  · exact h

theorem raiseHold_attn (h : AttnFollowsFlags s) : AttnFollowsFlags (raiseHold s) := by
  have hrisen : AttnFollowsFlags { s with holdLevel := true } := attnFollows_of_same h rfl rfl rfl rfl
  unfold raiseHold
  split
  · exact h
  · simp only
    split
    · exact lockingStepIfDue_attn (beginHoldEntry_attn hrisen)
    · exact hrisen

theorem dropHold_attn (h : AttnFollowsFlags s) : AttnFollowsFlags (dropHold s) := by
  unfold dropHold
  split
  · simp only
    split <;> exact attnFollows_of_same h rfl rfl rfl rfl
  · exact h

/-- ATTN is not asserted without power (R152, R159). -/
theorem attn_of_inert (h : AttnFollowsFlags s) (hp : s.powered = false) : s.attn = false := by
  cases ha : s.attn with
  | false => rfl
  | true =>
    obtain ⟨hgood, hreset, -⟩ := h.1 ha
    rw [(powered_iff s).2 ⟨hgood, hreset⟩] at hp
    contradiction

/-- Without power, ATTN follows exactly where it is not asserted. -/
theorem attnFollows_of_inert (ha : s.attn = false) (hp : s.powered = false) : AttnFollowsFlags s := by
  unfold AttnFollowsFlags
  rw [ha, ← and_assoc, ← powered_iff, hp]
  simp

/-- A line that rises makes a cold start, which brings ATTN up to date, or leaves the part without power. -/
theorem raiseLine_attn (l : SupplyLine) (h : AttnFollowsFlags s) : AttnFollowsFlags (raiseLine l s) := by
  unfold raiseLine
  split
  · exact h
  · next hlow =>
    simp only
    split
    · exact refreshAttn_follows _
    · next hp =>
      have hinert : s.powered = false := by
        cases l <;> simp_all [lineLevel, State.powered]
      have hattn : (setLine l true s).attn = s.attn := by cases l <;> rfl
      exact attnFollows_of_inert (hattn.trans (attn_of_inert h hinert)) (by simpa using hp)

/-- A line that falls stops the part, with ATTN not asserted, or falls in a part without power. -/
theorem dropLine_attn (l : SupplyLine) (h : AttnFollowsFlags s) : AttnFollowsFlags (dropLine l s) := by
  unfold dropLine
  split
  · split
    · exact refreshAttn_follows _
    · next hp =>
      have hattn : (setLine l false s).attn = s.attn := by cases l <;> rfl
      have hlow : (setLine l false s).powered = false := by cases l <;> simp [setLine, State.powered]
      exact attnFollows_of_inert (hattn.trans (attn_of_inert h (by simpa using hp))) hlow
  · exact h

/-! ## Every command -/

theorem rule_attn {f : State → State} {t : State} (h : AttnFollowsFlags s) (hf : AttnFollowsFlags (f s))
    (ht : rule f s = .next t) : AttnFollowsFlags t := by
  cases ht
  split
  · exact hf
  · exact h

theorem closingRule_attn {f : State → State} {t : State} (h : AttnFollowsFlags s)
    (hf : AttnFollowsFlags (f s)) (ht : closingRule f s = .next t) : AttnFollowsFlags t :=
  rule_attn (f := fun u => lockingStepIfDue (f u)) h (lockingStepIfDue_attn hf) ht

theorem request_attn {n : RequestName} {seq : Byte} {own : State → State} {t : State}
    (h : AttnFollowsFlags s) (hown : AttnFollowsFlags (own s))
    (ht : rule (takeRequest n seq own) s = .next t) : AttnFollowsFlags t :=
  rule_attn h (takeRequest_attn n seq h hown) ht

theorem exec_attn (c : Instr) {t : State} (h : AttnFollowsFlags s) (ht : exec c s = .next t) :
    AttnFollowsFlags t := by
  cases c with
  | jobOpener m => exact rule_attn h (takeOpener_attn m h) ht
  | sectorIn m => exact closingRule_attn h (arriveData_attn (.sector m) h) ht
  | handOver p => exact rule_attn h (handOver_attn p h) ht
  | pipeCompletion p => exact closingRule_attn h (completePass_attn p h) ht
  | sectorOut i => exact closingRule_attn h (acceptSector_attn i h) ht
  | identify r => exact request_attn h (identify_attn r h) ht
  | setNamespace r => exact request_attn h (setNamespace_attn r h) ht
  | defineExtent r => exact request_attn h (defineExtent_attn r h) ht
  | retireExtent r => exact request_attn h (retireExtent_attn r h) ht
  | setPolicy r => exact request_attn h (setPolicy_attn r h) ht
  | queryExtent r => exact request_attn h (queryExtent_attn r h) ht
  | querySlot r => exact request_attn h (querySlot_attn r h) ht
  | unlock r => exact request_attn h (unlock_attn r h) ht
  | lock r => exact request_attn h (lock_attn r h) ht
  | rewrap r => exact request_attn h (rewrap_attn r h) ht
  | erase r => exact request_attn h (erase_attn r h) ht
  | generate r => exact request_attn h (generate_attn r h) ht
  | setLink r => exact request_attn h (setLink_attn r h) ht
  | setTick r => exact request_attn h (setTick_attn r h) ht
  | readEvents r => exact request_attn h (readEvents_attn r h) ht
  | clearEvents r => exact request_attn h (clearEvents_attn r h) ht
  | setEventEnables r => exact request_attn h (setEventEnables_attn r h) ht
  | unknownRequest code seq => exact rule_attn h (attnFollows_of_same h rfl rfl rfl rfl) ht
  | unknownMessageType channel m =>
    cases channel with
    | control => exact rule_attn h (attnFollows_of_same h rfl rfl rfl rfl) ht
    | data => exact rule_attn h (arriveData_attn .unknown h) ht
  | readRecordEnd rest => exact rule_attn h (endRead_attn rest h) ht
  | writeRecordEnd => exact rule_attn h (endWrite_attn h) ht
  | addressNotAcknowledged => exact rule_attn h (addressNacked_attn h) ht
  | pollWaitEnd => exact rule_attn h (endPollWait_attn h) ht
  | nackData b => exact rule_attn h (dataNacked_attn b h) ht
  | stretchTimeout p => exact closingRule_attn h (stretchOut_attn p h) ht
  | collision p rest => exact closingRule_attn h (meetCollision_attn p rest h) ht
  | freeWaitExpiry => exact rule_attn h (freeWaitEnds_attn h) ht
  | otherMasterStart => exact rule_attn h (track_attn .busyOther s.link.releaseWatch h) ht
  | stopObserved => exact rule_attn h (linkFree_attn h) ht
  | releaseWatchQuiet => exact rule_attn h (quiet_attn h) ht
  | tick =>
    have hcounting : AttnFollowsFlags { s with divider := s.tickPeriod.refclkPeriods - 1 } :=
      attnFollows_of_same h rfl rfl rfl rfl
    exact rule_attn (f := reachPeriod) h (countPeriod_attn hcounting) ht
  | idleExpiry e => exact rule_attn h (expire_attn e h) ht
  | randomSample => exact rule_attn h (takeSample_attn h) ht
  | warmUpEnd => exact rule_attn h (endWarmUp_attn h) ht
  | repetitionTestFailure => exact rule_attn h (failRepetition_attn h) ht
  | coldStart l =>
    cases ht
    exact raiseLine_attn l h
  | selfCheckEnd p passed => exact closingRule_attn h (endCheck_attn p passed h) ht
  | powerGoodFalling l =>
    cases ht
    exact dropLine_attn l h
  | holdRises =>
    cases ht
    exact raiseHold_attn h
  | holdFalls =>
    cases ht
    exact dropHold_attn h
  | drainTimerExpiry => exact closingRule_attn h (expireDrain_attn h) ht
  | abandonedStopCompletes => exact closingRule_attn h (abandonedStop_attn h) ht

theorem step_attn {t : State} (h : AttnFollowsFlags s) (ht : step s = .next t) : AttnFollowsFlags t := by
  rcases hq : s.pending with _ | ⟨c, rest⟩
  · rw [step_of_empty hq] at ht
    cases ht
    exact timePasses_attn h
  · rw [step_of_pending hq] at ht
    exact exec_attn c (s := { s with pending := rest }) (attnFollows_of_same h rfl rfl rfl rfl) ht

/-- ATTN is asserted in a part that has power while a flag is SET and enabled. -/
theorem attn_of_enabledFlag {f : Flag} (h : AttnFollowsFlags s) (hp : s.powered = true)
    (hset : s.flags[f.idx].isSet = true) (hon : s.flags[f.idx].enable = true) : s.attn = true := by
  obtain ⟨hgood, hreset⟩ := (powered_iff s).1 hp
  exact h.2 ⟨hgood, hreset, f.idx, hset, hon⟩

/-- The line whose rise leaves neither low makes a cold start (R157). -/
theorem raiseLine_of_lastLow {l : SupplyLine} (hlow : lineLevel l s = false)
    (hp : (setLine l true s).powered = true) : raiseLine l s = startCold (setLine l true s) := by
  simp [raiseLine, hlow, hp]

end

/-- Settles O57: every rule brings ATTN up to date with the flags it changes; a flag that is SET and enabled before
and after a step keeps the line asserted. -/
theorem stepKeepsAttn : Obligations.StepKeepsAttn := by
  unfold Obligations.StepKeepsAttn
  refine ⟨fun s t => step_attn, fun l s hlow => ?_, fun f s t h ht hps hpt hset hon hset' hon' => ?_⟩
  · have hline : lineLevel l s = false ∧ (setLine l true s).powered = true := by
      cases l with
      | powerGood => exact ⟨hlow.1, (powered_iff _).2 ⟨rfl, hlow.2⟩⟩
      | resetN => exact ⟨hlow.2, (powered_iff _).2 ⟨hlow.1, rfl⟩⟩
    obtain ⟨hl, hp⟩ := hline
    refine ⟨startCold (setLine l true s), congrArg _ (raiseLine_of_lastLow hl hp), ?_, rfl⟩
    exact attn_of_enabledFlag (f := .coldStart) (refreshAttn_follows _) hp rfl rfl
  · rw [attn_of_enabledFlag h hps hset hon, attn_of_enabledFlag (step_attn h ht) hpt hset' hon']

end Sys2Proof.Machine
end

section
/-! PROOFS. Management Requests before their own rules (O4, O21): a request is read back from its bytes, and R148 and
R149 decide whether its own rule takes it. -/

namespace Sys2Proof.Machine

/-! ## Requests from their bytes (12.2) -/

theorem ofCode_code (n : RequestName) : RequestName.ofCode n.code = some n := by
  cases n <;> decide

theorem encodeItems_cons (i : Item) (items : List Item) :
    encodeItems (i :: items) = i.code :: BitVec.ofNat 8 i.value.length :: (i.value ++ encodeItems items) := rfl

theorem encodeItems_length (items : List Item) :
    (encodeItems items).length = (items.map Item.size).sum := by
  induction items with
  | nil => rfl
  | cons i items ih =>
    simp only [encodeItems_cons, List.length_cons, List.length_append, List.map_cons, List.sum_cons, ih, Item.size]
    omega

/-- Items whose values fit their length bytes are read back from their bytes. -/
theorem parseItems_encodeItems {items : List Item} (hfit : ∀ i ∈ items, i.value.length ≤ 255) {fuel : Nat}
    (hfuel : (encodeItems items).length ≤ fuel) : parseItems fuel (encodeItems items) = some items := by
  induction items generalizing fuel with
  | nil => simp [encodeItems, parseItems]
  | cons i items ih =>
    obtain ⟨hi, hrest⟩ := List.forall_mem_cons.1 hfit
    rw [encodeItems_cons] at hfuel ⊢
    obtain ⟨fuel, rfl⟩ : ∃ m, fuel = m + 1 := ⟨fuel - 1, by simp only [List.length_cons] at hfuel; omega⟩
    have hlen : (BitVec.ofNat 8 i.value.length).toNat = i.value.length := by
      rw [BitVec.toNat_ofNat, Nat.mod_eq_of_lt (by omega)]
    have hfits : i.value.length ≤ (i.value ++ encodeItems items).length := by simp
    have hread : parseItems fuel (encodeItems items) = some items := by
      refine ih hrest ?_
      simp only [List.length_cons, List.length_append] at hfuel
      omega
    rw [parseItems, hlen, if_pos hfits, List.drop_left, List.take_left, hread]
    rfl

theorem wellFormed_iff (r : Request) :
    r.wellFormed = true ↔ (∀ i ∈ r.items, i.value.length ≤ 255) ∧ (r.items.map Item.size).sum ≤ 1024 := by
  simp [Request.wellFormed, Item.wellFormed]

/-- A header that is not rejected, of a known request, with the items that fill its parameter length (R164). -/
theorem decodeRequest_of_accepted {n : RequestName} {seq target a b : Byte} {body : Bytes} {items : List Item}
    (hlen : beNat [a, b] = body.length) (hmax : body.length ≤ 1024)
    (hparsed : parseItems body.length body = some items) :
    decodeRequest (0x12 :: n.code :: seq :: target :: a :: b :: body) =
      Instr.ofRequest n { seq := seq, target := target, items := items } := by
  set message := 0x12 :: n.code :: seq :: target :: a :: b :: body with hmessage
  have hfield : fieldAt 4 2 message = body.length := hlen
  have hbody : message.drop 6 = body := rfl
  have hname : RequestName.ofCode (byteAt 1 message) = some n := ofCode_code n
  have hlength : message.length = body.length + 6 := rfl
  have haccepted : ¬(message.length < 6 ∨ body.length ≠ message.length - 6 ∨ 1024 < body.length) := by omega
  unfold decodeRequest
  simp only [hfield, if_neg haccepted, hname, hbody, hparsed]
  rfl

/-- Settles O4: the items fill the parameter length exactly, and the code names the request. -/
theorem requestsReadBackFromBytes : Obligations.RequestsReadBackFromBytes := by
  unfold Obligations.RequestsReadBackFromBytes
  intro n r hwf
  obtain ⟨hfit, hsize⟩ := (wellFormed_iff r).1 hwf
  rw [← encodeItems_length] at hsize
  obtain ⟨a, b, hheader⟩ := List.length_eq_two.1 (beBytes_length 2 (encodeItems r.items).length)
  have hlen : beNat [a, b] = (encodeItems r.items).length := by
    rw [← hheader, beNat_beBytes, Nat.mod_eq_of_lt (by omega)]
  have hencoded : encodeRequest n r = 0x12 :: n.code :: r.seq :: r.target :: a :: b :: encodeItems r.items := by
    rw [encodeRequest, hheader]
    rfl
  rw [hencoded]
  exact decodeRequest_of_accepted hlen hsize (parseItems_encodeItems hfit le_rfl)

/-! ## When a request reaches its own rule (R148, R149) -/

/-- A request's own rule. -/
def ownRule : RequestName → Request → State → State
  | .identify => identify
  | .setNamespace => setNamespace
  | .defineExtent => defineExtent
  | .retireExtent => retireExtent
  | .setPolicy => setPolicy
  | .queryExtent => queryExtent
  | .querySlot => querySlot
  | .unlock => unlock
  | .lock => lock
  | .rewrap => rewrap
  | .erase => erase
  | .generate => generate
  | .setLink => setLink
  | .setTick => setTick
  | .readEvents => readEvents
  | .clearEvents => clearEvents
  | .setEventEnables => setEventEnables

theorem exec_ofRequest (n : RequestName) (r : Request) (s : State) :
    exec (Instr.ofRequest n r) s = rule (takeRequest n r.seq (ownRule n r)) s := by
  cases n <;> rfl

theorem alwaysAccepted_eq_false {n : RequestName} (h1 : n ≠ .identify) (h2 : n ≠ .readEvents)
    (h3 : n ≠ .clearEvents) (h4 : n ≠ .setEventEnables) : RequestName.alwaysAccepted n = false := by
  cases n
  case identify => exact absurd rfl h1
  case readEvents => exact absurd rfl h2
  case clearEvents => exact absurd rfl h3
  case setEventEnables => exact absurd rfl h4
  all_goals rfl

/-- Settles O21: BUSY comes before the power state, and the power state before the request's own rule. -/
theorem requestsNotAcceptedAreAnswered : Obligations.RequestsNotAcceptedAreAnswered := by
  unfold Obligations.RequestsNotAcceptedAreAnswered
  intro n r s hp
  rw [exec_ofRequest, rule_of_powered _ hp]
  refine ⟨fun hbusy => ?_, fun hidle h1 h2 h3 h4 => ?_⟩
  · rw [takeRequest_busy _ _ _ hbusy, answer_eq_sent]
  · have hrefused : ∀ c, notAccepted s.power = some c →
        takeRequest n r.seq (ownRule n r) s = sent (answerTo n r c []) s := fun c hc =>
      takeRequest_refused _ _ (alwaysAccepted_eq_false h1 h2 h3 h4) hidle hc
    refine ⟨fun hpower => ?_, fun hpower => ?_, fun hpower => ?_, fun hpower => ?_⟩
    · rw [hrefused .starting (by rw [hpower]; rfl)]
    · rw [hrefused .holding (by rw [hpower]; rfl)]
    · rw [hrefused .holding (by rw [hpower]; rfl)]
    · rw [hrefused .failed (by rw [hpower]; rfl)]

end Sys2Proof.Machine
end

section
/-! PROOFS. The operands that requests spell (O22): a request whose owning rule reads its operands is not malformed, and
one whose operands are not read is answered FORMAT. -/

namespace Sys2Proof.Machine

/-! ## The ranges of the readers (12.2) -/

theorem yesNo_range {v : Nat} {b : Bool} (h : yesNo v = some b) : v ≤ 1 := by
  unfold yesNo at h
  split_ifs at h <;> omega

theorem maskOf_range {v : Nat} {m : MaskEntry} (h : maskOf v = some m) : 1 ≤ v ∧ v ≤ 2 := by
  unfold maskOf at h
  split_ifs at h <;> omega

theorem idleModeOf_range {v : Nat} {m : IdleMode} (h : idleModeOf v = some m) : v ≤ 2 := by
  unfold idleModeOf at h
  split_ifs at h <;> omega

theorem idleStepOf_range {v : Nat} {m : IdleStep} (h : idleStepOf v = some m) : 1 ≤ v ∧ v ≤ 2 := by
  unfold idleStepOf at h
  split_ifs at h <;> omega

theorem sectorSizeOf_range {v : Nat} {z : SectorSize} (h : sectorSizeOf v = some z) : v ≤ 1 := by
  unfold sectorSizeOf at h
  split_ifs at h <;> omega

theorem keySizeOf_range {v : Nat} {z : KeySize} (h : keySizeOf v = some z) : 1 ≤ v ∧ v ≤ 2 := by
  unfold keySizeOf at h
  split_ifs at h <;> omega

theorem slotModeOf_range {v : Nat} {m : SlotMode} (h : slotModeOf v = some m) : 1 ≤ v ∧ v ≤ 2 := by
  unfold slotModeOf at h
  split_ifs at h <;> omega

theorem directionsOf_range {v : Nat} {d : Directions} (h : directionsOf v = some d) : 1 ≤ v ∧ v ≤ 3 := by
  unfold directionsOf at h
  split_ifs at h <;> omega

theorem cutModeOf_range {v : Nat} {b : Bool} (h : cutModeOf v = some b) : 1 ≤ v ∧ v ≤ 2 := by
  unfold cutModeOf at h
  split_ifs at h <;> omega

theorem rateOf_range {v : Nat} {x : LinkRate} (h : rateOf v = some x) : 1 ≤ v ∧ v ≤ 2 := by
  unfold rateOf at h
  split_ifs at h <;> omega

theorem tickPeriodOf_range {v : Nat} {p : TickPeriod} (h : tickPeriodOf v = some p) : 1 ≤ v ∧ v ≤ 8 := by
  unfold tickPeriodOf at h
  split_ifs at h <;> omega

theorem inRange_range {lo hi v n : Nat} (h : inRange lo hi v = some n) : lo ≤ v ∧ v ≤ hi := by
  unfold inRange at h
  split_ifs at h with hv
  exact hv

theorem index?_range {n v : Nat} {i : Fin n} (h : index? n v = some i) : v < n := by
  rw [index?_eq_some.1 h]
  exact i.isLt

/-- A byte that is read as a flag is the flag's code (12.5). -/
theorem flagOf_eq_some {b : Byte} {f : Flag} (h : flagOf b = some f) : b.toNat = f.idx.val + 1 := by
  unfold flagOf at h
  split at h <;> cases h <;> assumption

theorem flagOf_range {b : Byte} {f : Flag} (h : flagOf b = some f) : 1 ≤ b.toNat ∧ b.toNat ≤ 13 := by
  have hcode := flagOf_eq_some h
  have := f.idx.isLt
  omega

theorem flagsOf_range {bs : Bytes} {fs : List Flag} (h : flagsOf bs = some fs) :
    ∀ b ∈ bs, 1 ≤ b.toNat ∧ b.toNat ≤ 13 := by
  induction bs generalizing fs with
  | nil => simp
  | cons b bs ih =>
    unfold flagsOf at h
    split at h
    · next f fs' hf hfs => exact List.forall_mem_cons.2 ⟨flagOf_range hf, ih hfs⟩
    · contradiction

/-- The pair in a place of the list that item 0x41 spells is read from its two bytes. -/
theorem enablesOf_pair {bs : Bytes} {es : List (Flag × Bool)} (h : enablesOf bs = some es) {i : Nat}
    (hi : 2 * i + 1 < bs.length) :
    ∃ p, es[i]? = some p ∧ flagOf (bs.getD (2 * i) 0) = some p.1 ∧
      yesNo (bs.getD (2 * i + 1) 0).toNat = some p.2 := by
  match bs, h with
  | [], _ => simp at hi
  | [_], _ => simp at hi
  | b :: v :: rest, h =>
    unfold enablesOf at h
    split at h
    · next f e more hf he hmore =>
      cases h
      cases i with
      | zero => exact ⟨(f, e), rfl, hf, he⟩
      | succ i =>
        have hrest : 2 * i + 1 < rest.length := by
          simp only [List.length_cons] at hi
          omega
        exact enablesOf_pair hmore hrest
    · contradiction

/-! ## Items in their ranges -/

/-- The item of a code, where a request carries it, is in its range. -/
def inRangeAt (r : Request) (c : Nat) : Prop :=
  ∀ v, valueOf r c = some v → itemInRange c v

theorem inRangeAt_of_need {α : Type} {r : Request} {c : Nat} {f : Nat → Option α} {a : α}
    (h : need r c f = some a) (hf : ∀ v b, f (beNat v) = some b → itemInRange c v) : inRangeAt r c := by
  intro v hv
  rw [need, hv, Option.bind_some] at h
  exact hf v a h

theorem inRangeAt_of_carried {α : Type} {r : Request} {c : Nat} {f : Nat → Option α} {a : Option α}
    (h : carried r c f = some a) (hf : ∀ v b, f (beNat v) = some b → itemInRange c v) : inRangeAt r c := by
  intro v hv
  simp only [carried, hv, Option.map_eq_some_iff] at h
  obtain ⟨b, hb, -⟩ := h
  exact hf v b hb

/-- Items that every value is in range of. -/
theorem inRangeAt_of_any {r : Request} {c : Nat} (h : ∀ v, itemInRange c v) : inRangeAt r c :=
  fun v _ => h v

theorem inRangeAt_of_policy {r : Request} {u : PolicyUpdate} (h : policyUpdate? r = some u) :
    ∀ c ∈ policyCodes, inRangeAt r c := by
  unfold policyUpdate? at h
  obtain ⟨_, h10, h⟩ := Option.bind_eq_some_iff.1 h
  obtain ⟨_, h11, h⟩ := Option.bind_eq_some_iff.1 h
  obtain ⟨_, h12, h⟩ := Option.bind_eq_some_iff.1 h
  obtain ⟨_, h13, h⟩ := Option.bind_eq_some_iff.1 h
  obtain ⟨_, h14, h⟩ := Option.bind_eq_some_iff.1 h
  obtain ⟨_, -, h⟩ := Option.bind_eq_some_iff.1 h
  obtain ⟨_, h16, h⟩ := Option.bind_eq_some_iff.1 h
  obtain ⟨_, h17, h⟩ := Option.bind_eq_some_iff.1 h
  obtain ⟨_, h18, h⟩ := Option.bind_eq_some_iff.1 h
  obtain ⟨_, h19, h⟩ := Option.bind_eq_some_iff.1 h
  obtain ⟨_, h1A, h⟩ := Option.bind_eq_some_iff.1 h
  obtain ⟨_, h1B, h⟩ := Option.bind_eq_some_iff.1 h
  obtain ⟨_, -, h⟩ := Option.bind_eq_some_iff.1 h
  obtain ⟨_, h1D, h⟩ := Option.bind_eq_some_iff.1 h
  simp only [policyCodes, List.forall_mem_cons]
  exact ⟨inRangeAt_of_carried h10 fun _ _ => inRange_range, inRangeAt_of_carried h11 fun _ _ => maskOf_range,
    inRangeAt_of_carried h12 fun _ _ => maskOf_range, inRangeAt_of_carried h13 fun _ _ => maskOf_range,
    inRangeAt_of_carried h14 fun _ _ => maskOf_range, inRangeAt_of_any fun _ => trivial,
    inRangeAt_of_carried h16 fun _ _ => yesNo_range, inRangeAt_of_carried h17 fun _ _ => yesNo_range,
    inRangeAt_of_carried h18 fun _ _ => idleModeOf_range, inRangeAt_of_carried h19 fun _ _ => inRange_range,
    inRangeAt_of_carried h1A fun _ _ => idleStepOf_range, inRangeAt_of_carried h1B fun _ _ => yesNo_range,
    inRangeAt_of_any fun _ => trivial, inRangeAt_of_carried h1D fun _ _ => yesNo_range, by simp⟩

/-! ## What the table of 12.2 asks of items -/

theorem itemSizeOk_iff (c len : Nat) : itemSizeOk c len = true ↔ sizeOfItem c len := by
  unfold itemSizeOk sizeOfItem
  split_ifs <;> simp

/-- What itemsOk asks of the items (12.2). -/
theorem itemsOk_holds {required optional : List Nat} {r : Request} (h : itemsOk required optional r = true) :
    (∀ i ∈ r.items, i.code.toNat ∈ required ++ optional) ∧ (itemCodes r).Nodup ∧
      (∀ c ∈ required, ∃ i ∈ r.items, i.code.toNat = c) ∧
      ∀ i ∈ r.items, sizeOfItem i.code.toNat i.value.length := by
  simp only [itemsOk, Bool.and_eq_true, List.all_eq_true, List.contains_iff_mem, itemSizeOk_iff, itemCodes,
    List.forall_mem_map] at h
  obtain ⟨⟨⟨⟨hknown, honce⟩, hthere⟩, hsize⟩, -⟩ := h
  exact ⟨hknown, of_decide_eq_true honce, fun c hc => by simpa using hthere c hc, hsize⟩

/-- Where no code is given twice, an item is the one found by its code. -/
theorem valueOf_of_mem {r : Request} (honce : (itemCodes r).Nodup) {i : Item} (hi : i ∈ r.items) :
    valueOf r i.code.toNat = some i.value := by
  unfold valueOf
  rcases hfound : r.items.find? (fun j => j.code.toNat == i.code.toNat) with _ | j
  · have := List.find?_eq_none.1 hfound i hi
    simp at this
  · have hcode : j.code.toNat = i.code.toNat := by simpa using List.find?_some hfound
    have hji : j = i := List.inj_on_of_nodup_map honce (List.mem_of_find?_eq_some hfound) hi hcode
    rw [hfound, hji]
    rfl

/-- A request as 12.2 has it: its items are those of the table, its target is below its bound, each item is in its
range, and where at least one item is required there is one. -/
structure WellSpelled (n : RequestName) (r : Request) : Prop where
  items : itemsOk (requiredItems n) (optionalItems n) r = true
  target : ∀ b, targetBound n = some b → r.target.toNat < b
  ranges : ∀ c ∈ requiredItems n ++ optionalItems n, inRangeAt r c
  nonempty : n = .setPolicy ∨ n = .setLink ∨ n = .setTick → r.items ≠ []

theorem WellSpelled.not_malformed {n : RequestName} {r : Request} (h : WellSpelled n r) : ¬malformed n r := by
  obtain ⟨hknown, honce, hthere, hsize⟩ := itemsOk_holds h.items
  rintro (⟨b, hb, hle⟩ | ⟨i, hi, hunknown⟩ | htwice | ⟨c, hc, habsent⟩ | ⟨i, hi, hwrong⟩ | ⟨i, hi, hout⟩ | ⟨hnone, hn⟩)
  · exact absurd (h.target b hb) (by omega)
  · exact hunknown (hknown i hi)
  · refine htwice (List.Nodup.of_map BitVec.toNat ?_)
    rwa [List.map_map]
  · obtain ⟨i, hi, hcode⟩ := hthere c hc
    exact habsent i hi hcode
  · exact hwrong (hsize i hi)
  · exact hout (h.ranges _ (hknown i hi) _ (valueOf_of_mem honce hi))
  · exact h.nonempty hn hnone

/-! ## Requests whose operands are read -/

section

variable {r : Request}

theorem bound_of_index {n : Nat} {i : Fin n} (h : index? n r.target.toNat = some i) :
    ∀ b, some n = some b → r.target.toNat < b := by
  rintro b ⟨⟩
  exact index?_range h

/-- IDENTIFY and READ EVENTS take no items. -/
theorem itemsOk_of_bare (h : bare r = true) : itemsOk [] [] r = true := by
  simp only [bare, Bool.and_eq_true] at h
  exact h.2

theorem wellSpelled_identify (h : bare r = true) : WellSpelled .identify r :=
  ⟨itemsOk_of_bare h, nofun, nofun, by simp⟩

theorem wellSpelled_readEvents (h : bare r = true) : WellSpelled .readEvents r :=
  ⟨itemsOk_of_bare h, nofun, nofun, by simp⟩

theorem wellSpelled_setNamespace {a : NamespaceArgs} (h : namespaceArgs? r = some a) :
    WellSpelled .setNamespace r := by
  simp only [namespaceArgs?, Option.bind_eq_bind, Option.bind_eq_some_iff, Option.guard_eq_some'] at h
  obtain ⟨-, hitems, ns, hns, size, hsize, sector, hsector, handle, hhandle, -⟩ := h
  refine ⟨hitems, bound_of_index hns, ?_, by simp⟩
  simp only [requiredItems, optionalItems, List.append_nil, List.forall_mem_cons]
  exact ⟨inRangeAt_of_need hsize fun _ _ h => (inRange_range h).2,
    inRangeAt_of_need hsector fun _ _ => sectorSizeOf_range,
    inRangeAt_of_need hhandle fun _ _ h => Nat.le_of_lt_succ (index?_range h), by simp⟩

theorem wellSpelled_defineExtent {a : DefineArgs} (h : defineArgs? r = some a) : WellSpelled .defineExtent r := by
  have hpolicy := inRangeAt_of_policy (defineArgs?_policy h)
  simp only [defineArgs?, Option.bind_eq_bind, Option.bind_eq_some_iff, Option.guard_eq_some'] at h
  obtain ⟨-, hitems, extent, hextent, ns, hns, -, -, -, -, handle, hhandle, -⟩ := h
  refine ⟨hitems, bound_of_index hextent, List.forall_mem_append.2 ⟨?_, hpolicy⟩, by simp⟩
  simp only [requiredItems, List.forall_mem_cons]
  exact ⟨inRangeAt_of_need hns fun _ _ h => Nat.le_of_lt_succ (index?_range h),
    inRangeAt_of_need hhandle fun _ _ h => Nat.le_of_lt_succ (index?_range h),
    inRangeAt_of_any fun _ => trivial, inRangeAt_of_any fun _ => trivial, by simp⟩

theorem wellSpelled_retireExtent {e : ExtentId} (h : extentOnly? r = some e) : WellSpelled .retireExtent r := by
  simp only [extentOnly?, Option.bind_eq_bind, Option.bind_eq_some_iff, Option.guard_eq_some'] at h
  obtain ⟨-, hitems, hextent⟩ := h
  exact ⟨hitems, bound_of_index hextent, nofun, by simp⟩

theorem wellSpelled_queryExtent {e : ExtentId} (h : extentOnly? r = some e) : WellSpelled .queryExtent r := by
  obtain ⟨hitems, htarget, hranges, -⟩ := wellSpelled_retireExtent h
  exact ⟨hitems, htarget, hranges, by simp⟩

theorem wellSpelled_querySlot {k : SlotId} (h : slotOnly? r = some k) : WellSpelled .querySlot r := by
  simp only [slotOnly?, Option.bind_eq_bind, Option.bind_eq_some_iff, Option.guard_eq_some'] at h
  obtain ⟨-, hitems, hslot⟩ := h
  exact ⟨hitems, bound_of_index hslot, nofun, by simp⟩

theorem wellSpelled_setPolicy {a : PolicyArgs} (h : policyArgs? r = some a) : WellSpelled .setPolicy r := by
  have hpolicy := inRangeAt_of_policy (policyArgs?_policy h)
  simp only [policyArgs?, Option.bind_eq_bind, Option.bind_eq_some_iff, Option.guard_eq_some', Bool.and_eq_true] at h
  obtain ⟨-, ⟨hitems, hsome⟩, extent, hextent, -⟩ := h
  exact ⟨hitems, bound_of_index hextent, hpolicy, fun _ => by simpa using hsome⟩

theorem wellSpelled_unlock {a : UnlockArgs} (h : unlockArgs? r = some a) : WellSpelled .unlock r := by
  simp only [unlockArgs?, Option.bind_eq_bind, Option.bind_eq_some_iff, Option.guard_eq_some'] at h
  obtain ⟨-, hitems, extent, hextent, -, -, dirs, hdirs, -⟩ := h
  refine ⟨hitems, bound_of_index hextent, ?_, by simp⟩
  simp only [requiredItems, optionalItems, List.append_nil, List.forall_mem_cons]
  exact ⟨inRangeAt_of_any fun _ => trivial, inRangeAt_of_need hdirs fun _ _ => directionsOf_range, by simp⟩

theorem wellSpelled_lock {a : LockArgs} (h : lockArgs? r = some a) : WellSpelled .lock r := by
  simp only [lockArgs?, Option.bind_eq_bind, Option.bind_eq_some_iff, Option.guard_eq_some'] at h
  obtain ⟨-, hitems, extent, hextent, dirs, hdirs, forget, hforget, cut, hcut, -⟩ := h
  refine ⟨hitems, bound_of_index hextent, ?_, by simp⟩
  simp only [requiredItems, optionalItems, List.append_nil, List.forall_mem_cons]
  exact ⟨inRangeAt_of_need hdirs fun _ _ => directionsOf_range, inRangeAt_of_need hforget fun _ _ => yesNo_range,
    inRangeAt_of_need hcut fun _ _ => cutModeOf_range, by simp⟩

theorem wellSpelled_rewrap {a : RewrapArgs} (h : rewrapArgs? r = some a) : WellSpelled .rewrap r := by
  simp only [rewrapArgs?, Option.bind_eq_bind, Option.bind_eq_some_iff, Option.guard_eq_some'] at h
  obtain ⟨-, hitems, extent, hextent, -⟩ := h
  refine ⟨hitems, bound_of_index hextent, ?_, by simp⟩
  simp only [requiredItems, optionalItems, List.append_nil, List.forall_mem_cons]
  exact ⟨inRangeAt_of_any fun _ => trivial, inRangeAt_of_any fun _ => trivial, by simp⟩

theorem wellSpelled_erase {a : EraseArgs} (h : eraseArgs? r = some a) : WellSpelled .erase r := by
  simp only [eraseArgs?, Option.bind_eq_bind, Option.bind_eq_some_iff, Option.guard_eq_some'] at h
  obtain ⟨-, hitems, extent, hextent, cut, hcut, -⟩ := h
  refine ⟨hitems, bound_of_index hextent, ?_, by simp⟩
  simp only [requiredItems, optionalItems, List.append_nil, List.forall_mem_cons]
  exact ⟨inRangeAt_of_need hcut fun _ _ => cutModeOf_range, by simp⟩

theorem wellSpelled_generate {a : GenerateArgs} (h : generateArgs? r = some a) : WellSpelled .generate r := by
  simp only [generateArgs?, Option.bind_eq_bind, Option.bind_eq_some_iff, Option.guard_eq_some'] at h
  obtain ⟨-, hitems, extent, hextent, -, -, dirs, hdirs, size, hsize, mode, hmode, -⟩ := h
  refine ⟨hitems, bound_of_index hextent, ?_, by simp⟩
  simp only [requiredItems, optionalItems, List.append_nil, List.forall_mem_cons]
  exact ⟨inRangeAt_of_any fun _ => trivial, inRangeAt_of_need hdirs fun _ _ => directionsOf_range,
    inRangeAt_of_need hsize fun _ _ => keySizeOf_range, inRangeAt_of_need hmode fun _ _ => slotModeOf_range, by simp⟩

theorem wellSpelled_setLink {a : LinkArgs} (h : linkArgs? r = some a) : WellSpelled .setLink r := by
  simp only [linkArgs?, Option.bind_eq_bind, Option.bind_eq_some_iff, Option.guard_eq_some', Bool.and_eq_true] at h
  obtain ⟨-, ⟨⟨-, hitems⟩, hsome⟩, rate, hrate, address, haddress, stretch, hstretch, wait, hwait, stall, hstall,
    -⟩ := h
  refine ⟨hitems, nofun, ?_, fun _ => by simpa using hsome⟩
  simp only [requiredItems, optionalItems, List.nil_append, List.forall_mem_cons]
  refine ⟨inRangeAt_of_carried hrate fun _ _ => rateOf_range, inRangeAt_of_carried haddress fun v b hb => ?_,
    inRangeAt_of_carried hstretch fun _ _ => inRange_range, inRangeAt_of_carried hwait fun _ _ => inRange_range,
    inRangeAt_of_carried hstall fun _ _ => yesNo_range, by simp⟩
  obtain ⟨n, hn, -⟩ := Option.map_eq_some_iff.1 hb
  exact (inRange_range hn).2

theorem wellSpelled_setTick {a : TickArgs} (h : tickArgs? r = some a) : WellSpelled .setTick r := by
  simp only [tickArgs?, Option.bind_eq_bind, Option.bind_eq_some_iff, Option.guard_eq_some', Bool.and_eq_true] at h
  obtain ⟨-, ⟨⟨-, hitems⟩, hsome⟩, period, hperiod, limit, hlimit, -⟩ := h
  refine ⟨hitems, nofun, ?_, fun _ => by simpa using hsome⟩
  simp only [requiredItems, optionalItems, List.nil_append, List.forall_mem_cons]
  exact ⟨inRangeAt_of_carried hperiod fun _ _ => tickPeriodOf_range,
    inRangeAt_of_carried hlimit fun _ _ => inRange_range, by simp⟩

/-- The list of a CLEAR EVENTS is read from item 0x40 (R154). -/
theorem clearArgs?_eq_some {fs : List Flag} (h : clearArgs? r = some fs) :
    itemsOk [0x40] [] r = true ∧ ∃ bs, valueOf r 0x40 = some bs ∧ flagsOf bs = some fs := by
  simp only [clearArgs?, Option.bind_eq_bind, Option.bind_eq_some_iff, Option.guard_eq_some', Bool.and_eq_true] at h
  obtain ⟨-, ⟨-, hitems⟩, hread⟩ := h
  exact ⟨hitems, hread⟩

theorem wellSpelled_clearEvents {fs : List Flag} (h : clearArgs? r = some fs) : WellSpelled .clearEvents r := by
  obtain ⟨hitems, bs, hbs, hfs⟩ := clearArgs?_eq_some h
  refine ⟨hitems, nofun, ?_, by simp⟩
  simp only [requiredItems, optionalItems, List.append_nil, List.forall_mem_cons]
  refine ⟨fun v hv => ?_, by simp⟩
  rw [hbs] at hv
  cases hv
  exact flagsOf_range hfs

/-- The enables of a SET EVENT ENABLES are read from item 0x41, and name no flag twice (R155). -/
theorem enableArgs?_eq_some {es : List (Flag × Bool)} (h : enableArgs? r = some es) :
    itemsOk [0x41] [] r = true ∧ (∃ bs, valueOf r 0x41 = some bs ∧ enablesOf bs = some es) ∧
      (es.map Prod.fst).Nodup := by
  simp only [enableArgs?, Option.bind_eq_bind, Option.bind_eq_some_iff, Option.guard_eq_some', Bool.and_eq_true,
    decide_eq_true_eq, Option.pure_def, Option.some.injEq] at h
  obtain ⟨-, ⟨-, hitems⟩, bs, hbs, pairs, hpairs, -, honce, rfl⟩ := h
  exact ⟨hitems, ⟨bs, hbs, hpairs⟩, honce⟩

/-- Pairs that name no flag twice stand in the range of item 0x41. -/
theorem enablesOf_inRange {bs : Bytes} {es : List (Flag × Bool)} (h : enablesOf bs = some es)
    (honce : (es.map Prod.fst).Nodup) : itemInRange 0x41 bs := by
  refine ⟨fun i hi => ?_, fun i j hij hj heq => ?_⟩
  · obtain ⟨p, -, hflag, hbool⟩ := enablesOf_pair h hi
    obtain ⟨hlow, hhigh⟩ := flagOf_range hflag
    exact ⟨hlow, hhigh, yesNo_range hbool⟩
  · obtain ⟨p, hp, hflagp, -⟩ := enablesOf_pair h (i := i) (by omega)
    obtain ⟨q, hq, hflagq, -⟩ := enablesOf_pair h hj
    have hsame : p.1 = q.1 := by
      rw [heq, hflagq] at hflagp
      exact (Option.some.inj hflagp).symm
    have hi : i < (es.map Prod.fst).length := by
      rw [List.length_map]
      exact (List.getElem?_eq_some_iff.1 hp).1
    have : i = j := (List.getElem?_inj hi honce).1 (by
      rw [List.getElem?_map, List.getElem?_map, hp, hq, Option.map_some, Option.map_some, hsame])
    omega

theorem wellSpelled_setEventEnables {es : List (Flag × Bool)} (h : enableArgs? r = some es) :
    WellSpelled .setEventEnables r := by
  obtain ⟨hitems, ⟨bs, hbs, hes⟩, honce⟩ := enableArgs?_eq_some h
  refine ⟨hitems, nofun, ?_, by simp⟩
  simp only [requiredItems, optionalItems, List.append_nil, List.forall_mem_cons]
  refine ⟨fun v hv => ?_, by simp⟩
  rw [hbs] at hv
  cases hv
  exact enablesOf_inRange hes honce

end

/-! ## Requests whose operands are not read -/

/-- The owning rule of a request does not read its operands. -/
def unread (r : Request) : RequestName → Prop
  | .identify => bare r = false
  | .setNamespace => namespaceArgs? r = none
  | .defineExtent => defineArgs? r = none
  | .retireExtent => extentOnly? r = none
  | .setPolicy => policyArgs? r = none
  | .queryExtent => extentOnly? r = none
  | .querySlot => slotOnly? r = none
  | .unlock => unlockArgs? r = none
  | .lock => lockArgs? r = none
  | .rewrap => rewrapArgs? r = none
  | .erase => eraseArgs? r = none
  | .generate => generateArgs? r = none
  | .setLink => linkArgs? r = none
  | .setTick => tickArgs? r = none
  | .readEvents => bare r = false
  | .clearEvents => clearArgs? r = none
  | .setEventEnables => enableArgs? r = none

theorem ownRule_of_unread {n : RequestName} {r : Request} (h : unread r n) (s : State) :
    ownRule n r s = sent (answerTo n r .format []) s := by
  rw [← answer_eq_sent]
  cases n <;> simp only [unread] at h
  case identify => simp only [ownRule, identify, h]; rfl
  case setNamespace => simp only [ownRule, setNamespace, h]
  case defineExtent => simp only [ownRule, defineExtent, h]
  case retireExtent => simp only [ownRule, retireExtent, h]
  case setPolicy => simp only [ownRule, setPolicy, h]
  case queryExtent => simp only [ownRule, queryExtent, h]
  case querySlot => simp only [ownRule, querySlot, h]
  case unlock => simp only [ownRule, unlock, h]
  case lock => simp only [ownRule, lock, h]
  case rewrap => simp only [ownRule, rewrap, h]
  case erase => simp only [ownRule, erase, h]
  case generate => simp only [ownRule, generate, h]
  case setLink => simp only [ownRule, setLink, h]
  case setTick => simp only [ownRule, setTick, h]
  case readEvents => simp only [ownRule, readEvents, h]; rfl
  case clearEvents => simp only [ownRule, clearEvents, h]
  case setEventEnables => simp only [ownRule, setEventEnables, h]

/-- Operands that are read only from a well spelled request are not read from a malformed one. -/
theorem eq_none_of_malformed {α : Type} {n : RequestName} {r : Request} {args : Option α} (h : malformed n r)
    (hread : ∀ a, args = some a → WellSpelled n r) : args = none :=
  Option.eq_none_iff_forall_ne_some.2 fun a ha => (hread a ha).not_malformed h

theorem unread_of_malformed {n : RequestName} {r : Request} (h : malformed n r) : unread r n := by
  cases n with
  | identify => exact Bool.eq_false_iff.2 fun hbare => (wellSpelled_identify hbare).not_malformed h
  | setNamespace => exact eq_none_of_malformed h fun _ => wellSpelled_setNamespace
  | defineExtent => exact eq_none_of_malformed h fun _ => wellSpelled_defineExtent
  | retireExtent => exact eq_none_of_malformed h fun _ => wellSpelled_retireExtent
  | setPolicy => exact eq_none_of_malformed h fun _ => wellSpelled_setPolicy
  | queryExtent => exact eq_none_of_malformed h fun _ => wellSpelled_queryExtent
  | querySlot => exact eq_none_of_malformed h fun _ => wellSpelled_querySlot
  | unlock => exact eq_none_of_malformed h fun _ => wellSpelled_unlock
  | lock => exact eq_none_of_malformed h fun _ => wellSpelled_lock
  | rewrap => exact eq_none_of_malformed h fun _ => wellSpelled_rewrap
  | erase => exact eq_none_of_malformed h fun _ => wellSpelled_erase
  | generate => exact eq_none_of_malformed h fun _ => wellSpelled_generate
  | setLink => exact eq_none_of_malformed h fun _ => wellSpelled_setLink
  | setTick => exact eq_none_of_malformed h fun _ => wellSpelled_setTick
  | readEvents => exact Bool.eq_false_iff.2 fun hbare => (wellSpelled_readEvents hbare).not_malformed h
  | clearEvents => exact eq_none_of_malformed h fun _ => wellSpelled_clearEvents
  | setEventEnables => exact eq_none_of_malformed h fun _ => wellSpelled_setEventEnables

theorem ownRule_of_malformed {n : RequestName} {r : Request} (h : malformed n r) (s : State) :
    ownRule n r s = sent (answerTo n r .format []) s :=
  ownRule_of_unread (unread_of_malformed h) s

/-- Settles O22: no owning rule reads the operands of a malformed request; a message that names no request is answered
before the request slot and the power state are looked at. -/
theorem malformedAndUnknownAreFormat : Obligations.MalformedAndUnknownAreFormat := by
  unfold Obligations.MalformedAndUnknownAreFormat
  refine ⟨fun n r s haccepts hmalformed => ?_, fun s hp => ⟨fun code seq => ?_, fun bytes => ?_⟩⟩
  · rw [exec_ofRequest, rule_takeRequest_of_accepts _ _ _ haccepts, ownRule_of_malformed hmalformed]
  · exact rule_of_powered _ hp
  · refine ⟨unknownSeq bytes, rule_of_powered _ hp, ?_⟩
    rintro a b c rest rfl
    rfl

end Sys2Proof.Machine
end

section
/-! PROOFS. IDENTIFY, READ EVENTS, CLEAR EVENTS and SET EVENT ENABLES (O24 to O27): what each answers, and what it does
to each flag. -/

namespace Sys2Proof.Machine

/-! ## Requests without operands -/

theorem bare_of_empty {r : Request} (ht : r.target = 0xFF) (hi : r.items = []) : bare r = true := by
  simp [bare, noTarget, itemsOk, itemCodes, ascending, ht, hi]

/-- Settles O24: without items and with target 0xFF the operands are read, and the rule only answers. -/
theorem identifyReports : Obligations.IdentifyReports := by
  unfold Obligations.IdentifyReports
  intro r s hl ht hi
  have hexec : exec (.identify r) s = .next (identify r s) :=
    rule_takeRequest_of_listens (n := .identify) r.seq (identify r) rfl hl
  rw [hexec, identify, if_pos (bare_of_empty ht hi), answer_eq_sent]
  rfl

/-! ## Flags that are rewritten -/

theorem mapFlags_flag (g : Fin 13 → EventFlag → EventFlag) (s : State) (i : Fin 13) :
    (mapFlags g s).flags[i] = g i s.flags[i] := by
  simp

theorem setFlag_self (f : Flag) (s : State) :
    (setFlag f s).flags[f.idx] = { state := .set false, enable := s.flags[f.idx].enable } := by
  rw [setFlag_flag, if_pos rfl]

/-- ATTN is the same where it follows flags that are SET and enabled alike. -/
theorem attn_of_sameLevels {s t : State} (hs : AttnFollowsFlags s) (ht : AttnFollowsFlags t)
    (hgood : t.powerGood = s.powerGood) (hreset : t.resetN = s.resetN)
    (hlevels : ∀ i : Fin 13, t.flags[i].isSet = s.flags[i].isSet ∧ t.flags[i].enable = s.flags[i].enable) :
    t.attn = s.attn := by
  rw [Bool.eq_iff_iff]
  refine ht.trans (Iff.trans ?_ hs.symm)
  simp only [hgood, hreset, hlevels]

/-! ## READ EVENTS (R153) -/

theorem reported_eq (f : EventFlag) :
    f.reported = { state := if f.isSet then .set true else .clear, enable := f.enable } := by
  rcases f with ⟨_ | m, e⟩ <;> rfl

theorem reported_isSet (f : EventFlag) : f.reported.isSet = f.isSet := by
  rcases f with ⟨_ | m, e⟩ <;> rfl

theorem reported_enable (f : EventFlag) : f.reported.enable = f.enable := by
  rw [reported_eq]

/-- The flags after READ EVENTS. -/
def flagsRead (s : State) : Vector EventFlag 13 :=
  Vector.ofFn fun i => s.flags[i].reported

theorem flagsRead_flag (s : State) (i : Fin 13) : (flagsRead s)[i] = s.flags[i].reported := by
  simp [flagsRead]

/-- Marks alone do not move ATTN. -/
theorem mapFlags_reported {s : State} (h : AttnFollowsFlags s) :
    mapFlags (fun _ f => f.reported) s = { s with flags := flagsRead s } := by
  have hattn : (mapFlags (fun _ f => f.reported) s).attn = s.attn := by
    refine attn_of_sameLevels h (mapFlags_follows _ s) rfl rfl fun i => ?_
    rw [mapFlags_flag]
    exact ⟨reported_isSet _, reported_enable _⟩
  rw [mapFlags_changes, hattn]
  rfl

/-- Settles O25: the answer shows the flags before their marks are made yes. -/
theorem readEventsShowsAndMarks : Obligations.ReadEventsShowsAndMarks := by
  unfold Obligations.ReadEventsShowsAndMarks
  refine ⟨setFlag_self, fun r s hl hattn ht hi => ?_⟩
  obtain ⟨hstates, hstate⟩ := flagSet_bits EventFlag.isSet s
  obtain ⟨henables, henable⟩ := flagSet_bits EventFlag.enable s
  obtain ⟨hmarks, hmark⟩ := flagSet_bits EventFlag.isReported s
  refine ⟨_, _, _, flagsRead s, ?_, hstates, henables, hmarks, fun i => ⟨hstate i, henable i, hmark i, ?_⟩⟩
  · have hexec : exec (.readEvents r) s = .next (readEvents r s) :=
      rule_takeRequest_of_listens (n := .readEvents) r.seq (readEvents r) rfl hl
    rw [hexec, readEvents, if_pos (bare_of_empty ht hi), mapFlags_reported hattn, answer_eq_sent]
    rfl
  · rw [flagsRead_flag, reported_eq]

/-! ## CLEAR EVENTS (R154) -/

section

variable {r : Request} {s : State}

theorem exec_clearEvents (r : Request) (h : Listens s) : exec (.clearEvents r) s = .next (clearEvents r s) :=
  rule_takeRequest_of_listens (n := .clearEvents) r.seq (clearEvents r) rfl h

theorem clearEvents_of_read {fs : List Flag} (h : clearArgs? r = some fs) :
    clearEvents r s =
      sent (answerTo .clearEvents r .ok
        [itemN 0x70 2 (flagSet EventFlag.isSet (clearListed fs s)), itemN 0x73 2 (keptSet fs s)])
        (clearListed fs s) := by
  rw [← answer_eq_sent]
  simp only [clearEvents, h]
  rfl

theorem clearEvents_of_unread (h : clearArgs? r = none) :
    clearEvents r s = sent (answerTo .clearEvents r .format []) s :=
  ownRule_of_unread (n := .clearEvents) h s

theorem listed_iff (fs : List Flag) (f : Flag) : listed fs f.idx = decide (f ∈ fs) := by
  rw [listed, Bool.eq_iff_iff]
  simp [Flag.idx_injective.eq_iff]

/-- A listed flag is cleared where it has been reported. -/
theorem clearListed_flag (fs : List Flag) (s : State) (f : Flag) :
    (clearListed fs s).flags[f.idx] =
      if f ∈ fs ∧ s.flags[f.idx].state = .set true then { state := .clear, enable := s.flags[f.idx].enable }
      else s.flags[f.idx] := by
  rw [clearListed, mapFlags_flag, listed_iff]
  rcases s.flags[f.idx] with ⟨_ | _ | _, e⟩ <;> by_cases hf : f ∈ fs <;> simp [EventFlag.cleared, hf]

/-- Each bit of the kept set stands for a listed flag that is SET with mark no. -/
theorem keptSet_bits (fs : List Flag) (s : State) :
    keptSet fs s < 2 ^ 13 ∧
      ∀ f : Flag, (keptSet fs s).testBit f.idx = (decide (f ∈ fs) && decide (s.flags[f.idx].state = .set false)) := by
  obtain ⟨hlt, hbits⟩ := bits_sum 13 fun i => listed fs i && s.flags[i].isSet && !s.flags[i].isReported
  refine ⟨hlt, fun f => (hbits f.idx).trans ?_⟩
  rw [listed_iff, Bool.and_assoc]
  rcases s.flags[f.idx] with ⟨_ | _ | _, e⟩ <;> simp [EventFlag.isSet, EventFlag.isReported]

/-- CLEAR EVENTS, whatever it lists, leaves a flag that is SET with mark no. -/
theorem clearEvents_keepsUnreported (r : Request) {f : Flag} (h : s.flags[f.idx].state = .set false) :
    (clearEvents r s).flags[f.idx].state = .set false := by
  rcases hargs : clearArgs? r with _ | fs
  · rw [clearEvents_of_unread hargs]
    exact h
  · rw [clearEvents_of_read hargs]
    have hkept : ¬(f ∈ fs ∧ s.flags[f.idx].state = .set true) := fun hc => by
      rw [h] at hc
      exact absurd hc.2 (by decide)
    show (clearListed fs s).flags[f.idx].state = _
    rw [clearListed_flag, if_neg hkept, h]

end

/-- Settles O26: only a flag whose mark is yes is cleared, and a flag that is set has mark no. -/
theorem clearEventsClearsReported : Obligations.ClearEventsClearsReported := by
  unfold Obligations.ClearEventsClearsReported
  refine ⟨fun r s hl hmalformed => ?_, fun r f s hl => ?_, fun r fs s hl hargs => ?_⟩
  · rw [exec_clearEvents r hl, clearEvents_of_unread (unread_of_malformed hmalformed)]
  · have hset : ∀ u, (setFlag f u).flags[f.idx].state = .set false := fun u => by rw [setFlag_self]
    exact ⟨_, _, exec_clearEvents r hl, exec_clearEvents (s := setFlag f s) r hl, hset _,
      clearEvents_keepsUnreported r (hset s)⟩
  · obtain ⟨hstates, hstate⟩ := flagSet_bits EventFlag.isSet (clearListed fs s)
    obtain ⟨hkept, hkeptBit⟩ := keptSet_bits fs s
    rw [exec_clearEvents r hl, clearEvents_of_read hargs]
    exact ⟨_, _, _, rfl, rfl, attnFollows_of_same (clearListed_follows fs s) rfl rfl rfl rfl, hstates, hkept, fun f =>
      ⟨hstate f.idx, hkeptBit f, clearListed_flag fs s f⟩⟩

/-! ## SET EVENT ENABLES (R155) -/

section

variable {r : Request} {s : State} {es : List (Flag × Bool)}

theorem exec_setEventEnables (r : Request) (h : Listens s) :
    exec (.setEventEnables r) s = .next (setEventEnables r s) :=
  rule_takeRequest_of_listens (n := .setEventEnables) r.seq (setEventEnables r) rfl h

theorem setEventEnables_of_read (h : enableArgs? r = some es) :
    setEventEnables r s =
      sent (answerTo .setEventEnables r .ok [itemN 0x71 2 (flagSet EventFlag.enable (writeEnables es s))])
        (writeEnables es s) := by
  rw [← answer_eq_sent]
  simp only [setEventEnables, h]
  rfl

theorem writeEnables_state (es : List (Flag × Bool)) (s : State) (i : Fin 13) :
    (writeEnables es s).flags[i].state = s.flags[i].state := by
  rw [writeEnables, mapFlags_flag]

theorem writeEnables_enable (es : List (Flag × Bool)) (s : State) (i : Fin 13) :
    (writeEnables es s).flags[i].enable = (carriedEnable es i).getD s.flags[i].enable := by
  rw [writeEnables, mapFlags_flag]

/-- Where no flag is named twice, the enable found for a flag is the one carried. -/
theorem carriedEnable_of_mem (honce : (es.map Prod.fst).Nodup) {f : Flag} {b : Bool} (h : (f, b) ∈ es) :
    carriedEnable es f.idx = some b := by
  unfold carriedEnable
  rcases hfound : es.find? (fun p => decide (p.1.idx = f.idx)) with _ | p
  · have := List.find?_eq_none.1 hfound (f, b) h
    simp at this
  · have hflag : p.1 = f := Flag.idx_injective (by simpa using List.find?_some hfound)
    have hp : p = (f, b) := List.inj_on_of_nodup_map honce (List.mem_of_find?_eq_some hfound) h hflag
    rw [hfound, hp]
    rfl

theorem carriedEnable_of_absent {f : Flag} (h : ∀ b, (f, b) ∉ es) : carriedEnable es f.idx = none := by
  unfold carriedEnable
  rw [Option.map_eq_none_iff, List.find?_eq_none]
  rintro ⟨g, b⟩ hp hg
  have hgf : g = f := Flag.idx_injective (by simpa using hg)
  exact h b (hgf ▸ hp)

end

/-- Settles O27: each flag's enable is the one carried for it, and else its own. -/
theorem setEventEnablesWritesCarried : Obligations.SetEventEnablesWritesCarried := by
  unfold Obligations.SetEventEnablesWritesCarried
  refine ⟨fun r s hl hmalformed => ?_, fun r es s hl hargs => ?_⟩
  · rw [exec_setEventEnables r hl]
    exact congrArg _ (ownRule_of_malformed (n := .setEventEnables) hmalformed s)
  · obtain ⟨-, -, honce⟩ := enableArgs?_eq_some hargs
    obtain ⟨henables, henable⟩ := flagSet_bits EventFlag.enable (writeEnables es s)
    rw [exec_setEventEnables r hl, setEventEnables_of_read hargs]
    refine ⟨_, _, rfl, rfl, attnFollows_of_same (writeEnables_follows es s) rfl rfl rfl rfl, henables, fun f => ?_⟩
    have henabled := writeEnables_enable es s f.idx
    refine ⟨henable f.idx, writeEnables_state es s f.idx, fun b hb => ?_, fun habsent => ?_⟩
    · rwa [carriedEnable_of_mem honce hb] at henabled
    · rwa [carriedEnable_of_absent habsent] at henabled

end Sys2Proof.Machine
end

section
/-! PROOFS. The locking step of hold entry (O55). Each extent has its turn: one with lock on hold is locked, its slot is
given back and its timer disarmed; any other is left as it was. What one turn does, what all turns together do, and
the step. -/

namespace Sys2Proof.Machine

/-! ## One extent's turn (R162) -/

/-- The record of an extent after its turn. -/
def Extent.lockedForHold (x : Extent) : Extent :=
  if x.policy.lockOnHold then
    { x with readLock := true, writeLock := true, key := if x.key.isLive then .none else x.key }
  else x

theorem Extent.lockedForHold_policy (x : Extent) : x.lockedForHold.policy = x.policy := by
  unfold Extent.lockedForHold
  split <;> rfl

/-- An extent with lock on hold has both locks set and no key after its turn. -/
theorem Extent.lockedForHold_locked {x : Extent} (h : x.policy.lockOnHold = true) :
    x.lockedForHold.readLock = true ∧ x.lockedForHold.writeLock = true ∧ x.lockedForHold.key.isLive = false := by
  unfold Extent.lockedForHold
  rw [if_pos h]
  refine ⟨rfl, rfl, ?_⟩
  cases x.key <;> rfl

/-- A second turn would change nothing. -/
theorem Extent.lockedForHold_idem (x : Extent) : x.lockedForHold.lockedForHold = x.lockedForHold := by
  by_cases h : x.policy.lockOnHold = true
  · simp only [Extent.lockedForHold, h, if_true]
    cases x.key <;> rfl
  · simp only [Extent.lockedForHold, h, if_false, Bool.false_eq_true]

/-- The extent of a record asks to be locked in hold entry. -/
def locksOnHold (x : Option Extent) : Prop :=
  ∃ y, x = some y ∧ y.policy.lockOnHold = true

theorem locksOnHold_map_lockedForHold (x : Option Extent) :
    locksOnHold (x.map Extent.lockedForHold) ↔ locksOnHold x := by
  cases x with
  | none => rfl
  | some x => simp [locksOnHold, Extent.lockedForHold_policy]

section
variable {i e : ExtentId} {k : SlotId} {x : Extent} {u : State}

/-- A timer whose extent has both locks set does not count (R140). -/
theorem judgedTimer_of_locked (r : Bool) (hx : u.extents[e] = some x) (hread : x.readLock = true)
    (hwrite : x.writeLock = true) : judgedTimer r e u = .disarmed := by
  simp [judgedTimer, armed, hx, hread, hwrite]

theorem lockForHold_of_locksOnHold (hx : u.extents[i] = some x) (hl : x.policy.lockOnHold = true) :
    lockForHold i u =
      { u with extents := u.extents.set i (some x.lockedForHold), slots := releasedSlots x u
               timers := u.timers.set i .disarmed } := by
  have hextents : (lockForHold i u).extents = u.extents.set i (some x.lockedForHold) := by
    rw [lockForHold_extents, hx]
    rfl
  have hlocked : (releaseExtent .forget i
      (setExtent i (some { x with readLock := true, writeLock := true }) u)).extents[i] = some x.lockedForHold := by
    rw [releaseExtent_extents .forget (x := { x with readLock := true, writeLock := true }) (by simp)]
    simp [Extent.lockedForHold, hl]
  obtain ⟨hread, hwrite, -⟩ := Extent.lockedForHold_locked hl
  have hturn : lockForHold i u = judgeTimer false i (releaseExtent .forget i
      (setExtent i (some { x with readLock := true, writeLock := true }) u)) := by
    simp only [lockForHold, hx, hl, if_true]
  have hslots : (lockForHold i u).slots = releasedSlots x u := by
    rw [hturn]
    exact releaseExtent_slots .forget (x := { x with readLock := true, writeLock := true }) (by simp)
  have htimers : (lockForHold i u).timers = u.timers.set i .disarmed := by
    rw [hturn, judgeTimer_changes, judgedTimer_of_locked false hlocked hread hwrite, releaseExtent_changes]
    rfl
  rw [lockForHold_changes, hextents, hslots, htimers]

theorem lockForHold_of_other (h : ¬locksOnHold u.extents[i]) : lockForHold i u = u := by
  unfold lockForHold
  split
  · rfl
  · next x hx =>
    have hl : ¬x.policy.lockOnHold = true := fun hl => h ⟨x, hx, hl⟩
    rw [if_neg hl]

/-- What a turn can do. -/
theorem lockForHold_cases (i : ExtentId) (u : State) :
    (∃ x, u.extents[i] = some x ∧ x.policy.lockOnHold = true ∧
      lockForHold i u =
        { u with extents := u.extents.set i (some x.lockedForHold), slots := releasedSlots x u
                 timers := u.timers.set i .disarmed }) ∨
    (¬locksOnHold u.extents[i] ∧ lockForHold i u = u) := by
  by_cases h : locksOnHold u.extents[i]
  · obtain ⟨x, hx, hl⟩ := h
    exact .inl ⟨x, hx, hl, lockForHold_of_locksOnHold hx hl⟩
  · exact .inr ⟨h, lockForHold_of_other h⟩

theorem lockForHold_extent (i e : ExtentId) (u : State) :
    (lockForHold i u).extents[e] =
      if i = e then u.extents[e].map Extent.lockedForHold else u.extents[e] := by
  rw [lockForHold_extents, getElem_extents_set]
  split_ifs with h
  · subst h
    rfl
  · rfl

theorem lockForHold_locksOnHold (i e : ExtentId) (u : State) :
    locksOnHold (lockForHold i u).extents[e] ↔ locksOnHold u.extents[e] := by
  rw [lockForHold_extent]
  split_ifs
  · exact locksOnHold_map_lockedForHold _
  · rfl

theorem lockForHold_timer (i e : ExtentId) (u : State) :
    (lockForHold i u).timers[e] = u.timers[e] ∨
      (i = e ∧ locksOnHold u.extents[e] ∧ (lockForHold i u).timers[e] = .disarmed) := by
  obtain ⟨x, hx, hl, hturn⟩ | ⟨-, hturn⟩ := lockForHold_cases i u
  · rw [hturn]
    by_cases h : i = e
    · subst h
      exact .inr ⟨rfl, ⟨x, hx, hl⟩, by simp⟩
    · exact .inl (by simp [Fin.val_ne_of_ne h])
  · exact .inl (by rw [hturn])

/-- The turn of an extent with lock on hold disarms its timer. -/
theorem lockForHold_own_timer (h : locksOnHold u.extents[e]) : (lockForHold e u).timers[e] = .disarmed := by
  obtain ⟨x, hx, hl⟩ := h
  rw [lockForHold_of_locksOnHold hx hl]
  simp

/-! ## The slot of an extent in its turn -/

theorem releasedSlots_of_unpinned {e' : ExtentId} {key : LoadedKey} (hk : x.key = .live k)
    (hready : u.slots[k].state = .ready e' key) (hp : u.slots[k].pins = 0) :
    (releasedSlots x u)[k] = Slot.empty := by
  simp only [releasedSlots, hk, hready, hp, if_true]
  simp [Slot.empty]

/-- A release leaves a slot that is EMPTY. -/
theorem releasedSlots_of_empty (x : Extent) (h : u.slots[k] = Slot.empty) : (releasedSlots x u)[k] = Slot.empty := by
  unfold releasedSlots
  split
  · next n _ =>
    by_cases hn : n = k
    · subst hn
      have hstate : u.slots[n].state = .empty := by rw [h]; rfl
      simpa only [hstate] using h
    · split
      · simp only [Fin.getElem_fin, Vector.getElem_set_ne _ _ (Fin.val_ne_of_ne hn)]
        exact h
      · exact h
  · exact h

theorem lockForHold_slot_of_empty (i : ExtentId) (h : u.slots[k] = Slot.empty) :
    (lockForHold i u).slots[k] = Slot.empty := by
  obtain ⟨x, -, -, hturn⟩ | ⟨-, hturn⟩ := lockForHold_cases i u
  · rw [hturn]
    exact releasedSlots_of_empty x h
  · rw [hturn]
    exact h

/-- An extent with lock on hold names the slot, which is READY without pins: its turn makes the slot EMPTY. -/
def givesBack (e : ExtentId) (k : SlotId) (u : State) : Prop :=
  (∃ x, u.extents[e] = some x ∧ x.policy.lockOnHold = true ∧ x.key = .live k) ∧
    (∃ e' key, u.slots[k].state = .ready e' key) ∧ u.slots[k].pins = 0

theorem lockForHold_own_slot (h : givesBack e k u) : (lockForHold e u).slots[k] = Slot.empty := by
  obtain ⟨⟨x, hx, hl, hk⟩, ⟨e', key, hready⟩, hp⟩ := h
  rw [lockForHold_of_locksOnHold hx hl]
  exact releasedSlots_of_unpinned hk hready hp

/-- No extent with lock on hold names the slot. -/
def unnamedOnHold (k : SlotId) (u : State) : Prop :=
  ∀ (e : ExtentId) (x : Extent), u.extents[e] = some x → x.policy.lockOnHold = true → x.key ≠ .live k

/-- Another extent's turn leaves that slot to be given back, or it names the same slot and gives it back. -/
theorem lockForHold_givesBack (i : ExtentId) (h : givesBack e k u) :
    givesBack e k (lockForHold i u) ∨ (lockForHold i u).slots[k] = Slot.empty := by
  by_cases hi : i = e
  · subst hi
    exact .inr (lockForHold_own_slot h)
  · obtain ⟨⟨x, hx, hl, hk⟩, hready, hp⟩ := h
    by_cases hnamed : ∃ y, u.extents[i] = some y ∧ y.policy.lockOnHold = true ∧ y.key = .live k
    · exact .inr (lockForHold_own_slot ⟨hnamed, hready, hp⟩)
    · have hslot : (lockForHold i u).slots[k] = u.slots[k] :=
        lockForHold_slots_of_unnamed i k u fun y hy hly hky => hnamed ⟨y, hy, hly, hky⟩
      refine .inl ⟨⟨x, ?_, hl, hk⟩, ?_, ?_⟩
      · rw [lockForHold_extent, if_neg hi]
        exact hx
      · rwa [hslot]
      · rwa [hslot]

end

/-! ## The turns, one after the other -/

/-- The extents of a list take their turns. -/
def lockTurns (es : List ExtentId) (s : State) : State :=
  es.foldl (fun s e => lockForHold e s) s

/-- What every turn keeps, all turns keep. -/
theorem lockTurns_keeps {I : State → Prop} (hkeep : ∀ i u, I u → I (lockForHold i u)) (es : List ExtentId)
    (u : State) (hu : I u) : I (lockTurns es u) := by
  induction es generalizing u with
  | nil => exact hu
  | cons i es ih => exact ih _ (hkeep i u hu)

/-- What one extent's turn makes of a state that all turns keep, and every turn then keeps, holds after the turns of a
list that the extent is in. -/
theorem lockTurns_reaches {I Q : State → Prop} {e : ExtentId} (hkeep : ∀ i u, I u → I (lockForHold i u))
    (hmake : ∀ u, I u → Q (lockForHold e u)) (hstay : ∀ i u, Q u → Q (lockForHold i u))
    {es : List ExtentId} (he : e ∈ es) (u : State) (hu : I u) : Q (lockTurns es u) := by
  induction es generalizing u with
  | nil => cases he
  | cons i es ih =>
    cases he with
    | head => exact lockTurns_keeps hstay es _ (hmake u hu)
    | tail _ he => exact ih he _ (hkeep i u hu)

theorem lockTurns_changes (es : List ExtentId) (s : State) :
    lockTurns es s =
      { s with extents := (lockTurns es s).extents, slots := (lockTurns es s).slots
               timers := (lockTurns es s).timers } := by
  refine lockTurns_keeps (I := fun u => u = { s with extents := u.extents, slots := u.slots, timers := u.timers })
    (fun i u hu => ?_) es s rfl
  rw [lockForHold_changes]
  rw [hu]

section
variable {e : ExtentId} {k : SlotId} {es : List ExtentId} {s : State}

theorem lockTurns_extent (he : e ∈ es) (s : State) :
    (lockTurns es s).extents[e] = s.extents[e].map Extent.lockedForHold := by
  have hagain : (s.extents[e].map Extent.lockedForHold).map Extent.lockedForHold =
      s.extents[e].map Extent.lockedForHold := by
    rw [Option.map_map]
    exact congrArg (Option.map · _) (funext Extent.lockedForHold_idem)
  refine lockTurns_reaches
    (I := fun u => u.extents[e] = s.extents[e] ∨ u.extents[e] = s.extents[e].map Extent.lockedForHold)
    (Q := fun u => u.extents[e] = s.extents[e].map Extent.lockedForHold)
    (fun i u hu => ?_) (fun u hu => ?_) (fun i u hu => ?_) he s (.inl rfl)
  · rw [lockForHold_extent]
    split_ifs
    · exact .inr (hu.elim (fun h => by rw [h]) fun h => by rw [h, hagain])
    · exact hu
  · rw [lockForHold_extent, if_pos rfl]
    exact hu.elim (fun h => by rw [h]) fun h => by rw [h, hagain]
  · rw [lockForHold_extent]
    split_ifs
    · rw [hu, hagain]
    · exact hu

theorem lockTurns_timer_of_locks (he : e ∈ es) (h : locksOnHold s.extents[e]) :
    (lockTurns es s).timers[e] = .disarmed := by
  refine lockTurns_reaches (I := fun u => locksOnHold u.extents[e]) (Q := fun u => u.timers[e] = .disarmed)
    (fun i u => (lockForHold_locksOnHold i e u).2) (fun u => lockForHold_own_timer) (fun i u hu => ?_) he s h
  obtain hsame | ⟨-, -, hdisarmed⟩ := lockForHold_timer i e u
  · exact hsame.trans hu
  · exact hdisarmed

theorem lockTurns_timer_of_other (es : List ExtentId) (h : ¬locksOnHold s.extents[e]) :
    (lockTurns es s).timers[e] = s.timers[e] := by
  refine (lockTurns_keeps (I := fun u => ¬locksOnHold u.extents[e] ∧ u.timers[e] = s.timers[e])
    (fun i u hu => ?_) es s ⟨h, rfl⟩).2
  obtain ⟨hother, hsame⟩ := hu
  refine ⟨fun hl => hother ((lockForHold_locksOnHold i e u).1 hl), ?_⟩
  obtain hkept | ⟨-, hl, -⟩ := lockForHold_timer i e u
  · exact hkept.trans hsame
  · exact absurd hl hother

theorem lockTurns_slot_of_named (he : e ∈ es) (h : givesBack e k s) : (lockTurns es s).slots[k] = Slot.empty := by
  refine lockTurns_reaches (I := fun u => givesBack e k u ∨ u.slots[k] = Slot.empty)
    (Q := fun u => u.slots[k] = Slot.empty) (fun i u hu => ?_) (fun u hu => ?_)
    (fun i u => lockForHold_slot_of_empty i) he s (.inl h)
  · exact hu.elim (lockForHold_givesBack i) fun hempty => .inr (lockForHold_slot_of_empty i hempty)
  · exact hu.elim lockForHold_own_slot (lockForHold_slot_of_empty e)

theorem lockTurns_slot_of_unnamed (es : List ExtentId) (h : unnamedOnHold k s) :
    (lockTurns es s).slots[k] = s.slots[k] := by
  refine (lockTurns_keeps (I := fun u => unnamedOnHold k u ∧ u.slots[k] = s.slots[k])
    (fun i u hu => ?_) es s ⟨h, rfl⟩).2
  obtain ⟨hnone, hsame⟩ := hu
  refine ⟨fun e x hx hl hk => ?_, (lockForHold_slots_of_unnamed i k u (hnone i)).trans hsame⟩
  obtain ⟨y, hy, hly, hky⟩ := lockForHold_live i e u x hx hl k hk
  exact hnone e y hy hly hky

end

/-! ## The locking step (R162) -/

theorem lockingStep_eq (s : State) :
    lockingStep s =
      { lockTurns (List.finRange 24) s with
        drainTimer := none, power := if s.holdLevel then .hold else .run } := by
  have hlevel : (lockTurns (List.finRange 24) s).holdLevel = s.holdLevel := by rw [lockTurns_changes]
  rw [← hlevel]
  unfold lockingStep lockTurns
  rfl

theorem lockingStep_turns (s : State) :
    (lockingStep s).extents = (lockTurns (List.finRange 24) s).extents ∧
      (lockingStep s).slots = (lockTurns (List.finRange 24) s).slots ∧
      (lockingStep s).timers = (lockTurns (List.finRange 24) s).timers := by
  rw [lockingStep_eq]
  generalize lockTurns (List.finRange 24) s = u
  exact ⟨rfl, rfl, rfl⟩

theorem lockingStep_changes (s : State) :
    lockingStep s =
      { s with drainTimer := none, power := if s.holdLevel then .hold else .run
               extents := (lockingStep s).extents, slots := (lockingStep s).slots
               timers := (lockingStep s).timers } := by
  obtain ⟨hextents, hslots, htimers⟩ := lockingStep_turns s
  rw [hextents, hslots, htimers, lockingStep_eq, lockTurns_changes]

theorem lockingStep_extent (e : ExtentId) (s : State) :
    (lockingStep s).extents[e] = s.extents[e].map Extent.lockedForHold := by
  obtain ⟨hextents, -, -⟩ := lockingStep_turns s
  rw [hextents]
  exact lockTurns_extent (List.mem_finRange e) s

theorem lockingStep_drainTimer (s : State) : (lockingStep s).drainTimer = none := by rw [lockingStep_changes]

/-- The step is due exactly in QUIESCING with the Job Table and the executing-request slot empty. -/
theorem lockingStep_due_iff (s : State) :
    (s.power = .quiescing ∧ tableEmpty s = true ∧ s.executing.isNone = true) ↔
      s.power = .quiescing ∧ (∀ t : TagId, s.jobs[t] = none) ∧ s.executing = none := by
  rw [tableEmpty_iff, Option.isNone_iff_eq_none]

section
variable {e : ExtentId} {k : SlotId} {s : State}

theorem lockingStep_timer_of_locks (h : locksOnHold s.extents[e]) : (lockingStep s).timers[e] = .disarmed := by
  obtain ⟨-, -, htimers⟩ := lockingStep_turns s
  rw [htimers]
  exact lockTurns_timer_of_locks (List.mem_finRange e) h

theorem lockingStep_timer_of_other (h : ¬locksOnHold s.extents[e]) : (lockingStep s).timers[e] = s.timers[e] := by
  obtain ⟨-, -, htimers⟩ := lockingStep_turns s
  rw [htimers]
  exact lockTurns_timer_of_other _ h

theorem lockingStep_slot_of_named (h : givesBack e k s) : (lockingStep s).slots[k] = Slot.empty := by
  obtain ⟨-, hslots, -⟩ := lockingStep_turns s
  rw [hslots]
  exact lockTurns_slot_of_named (List.mem_finRange e) h

theorem lockingStep_slot_of_unnamed (h : unnamedOnHold k s) : (lockingStep s).slots[k] = s.slots[k] := by
  obtain ⟨-, hslots, -⟩ := lockingStep_turns s
  rw [hslots]
  exact lockTurns_slot_of_unnamed _ h

end

/-- Settles O55: the turns of all extents, each of which locks and gives back what its own record names, and stays so
through the turns of the others. -/
theorem lockingStepLocksAndForgets : Obligations.LockingStepLocksAndForgets := by
  unfold Obligations.LockingStepLocksAndForgets
  intro s
  dsimp only
  refine ⟨fun h => if_pos ((lockingStep_due_iff s).2 h),
    fun h => lockingStepIfDue_of_notDue fun h' => h ((lockingStep_due_iff s).1 h'), lockingStep_drainTimer s,
    lockingStep_power s, fun e => lockingStep_extent e s, fun e x hx hl => lockingStep_timer_of_locks ⟨x, hx, hl⟩,
    fun e hother => lockingStep_timer_of_other ?_,
    fun e x k key hx hl hk hready hp => lockingStep_slot_of_named ⟨⟨x, hx, hl, hk⟩, ⟨e, key, hready⟩, hp⟩,
    fun k hnone => lockingStep_slot_of_unnamed hnone, ?_⟩
  · rintro ⟨x, hx, hl⟩
    rw [hother x hx] at hl
    contradiction
  · rw [lockingStep_drainTimer, lockingStep_power]
    exact lockingStep_changes s

end Sys2Proof.Machine
end

section
/-! PROOFS. What no rule but those of power changes (O3): the power state, and the queue of commands. What each shared
operation and each rule leaves of the two. -/

namespace Sys2Proof.Machine

/-- The power state and the queue of commands stay as they are. -/
structure PowerFrame (s t : State) : Prop where
  power : t.power = s.power
  pending : t.pending = s.pending

theorem PowerFrame.refl (s : State) : PowerFrame s s := ⟨rfl, rfl⟩

theorem PowerFrame.trans {s t u : State} (h : PowerFrame s t) (k : PowerFrame t u) : PowerFrame s u :=
  ⟨k.power.trans h.power, k.pending.trans h.pending⟩

/-- What follows writes neither. -/
theorem PowerFrame.then_same {s t u : State} (h : PowerFrame s t) (hpower : u.power = t.power)
    (hpending : u.pending = t.pending) : PowerFrame s u :=
  h.trans ⟨hpower, hpending⟩

/-- What went before wrote neither. -/
theorem PowerFrame.after_same {s t u : State} (k : PowerFrame t u) (hpower : t.power = s.power)
    (hpending : t.pending = s.pending) : PowerFrame s u :=
  PowerFrame.trans ⟨hpower, hpending⟩ k

theorem JobFrame.powerFrame {s t : State} (h : JobFrame s t) : PowerFrame s t := ⟨h.power, h.pending⟩

/-! ## Jobs and their sectors -/

theorem JobFrame.of_takeOpener (m : OpenerMsg) (s : State) : JobFrame s (takeOpener m s) := by
  unfold takeOpener
  split
  · exact .of_emitCloser ..
  · exact .trans (.of_setJob ..) (.of_setTimer ..)
  · exact .trans (.trans (.of_setJob ..) (.of_setSlot ..)) (.of_setTimer ..)

theorem JobFrame.of_takeSector (t : TagId) (data : Bytes) (stored : Option SectorTag) (s : State) :
    JobFrame s (takeSector t data stored s) := by
  unfold takeSector
  split
  · exact .of_listSector ..
  · split
    · constructor <;> rfl
    · exact .of_overrun ..

theorem JobFrame.of_malformedSector (t : TagId) (j : Job) (s : State) : JobFrame s (malformedSector t j s) :=
  .trans (.of_stopJob ..) (.of_closeIfDone ..)

theorem JobFrame.of_sectorOfActive (t : TagId) (j : Job) (m : SectorInMsg) (s : State) :
    JobFrame s (sectorOfActive t j m s) := by
  unfold sectorOfActive
  split
  · exact .of_malformedSector ..
  · split
    · exact .of_malformedSector ..
    · split
      · exact .of_setJob ..
      · split
        · exact .of_takeSector ..
        · exact .of_malformedSector ..

theorem JobFrame.of_deliver (m : DataMsg) (s : State) : JobFrame s (deliver m s) := by
  cases m with
  | unknown => exact .of_setFlag ..
  | sector m =>
    show JobFrame s (deliverSector m s)
    unfold deliverSector
    split
    · exact .of_setFlag ..
    · split
      · exact .of_setFlag ..
      · split
        · exact .refl s
        · split
          · exact .of_setFlag ..
          · exact .of_sectorOfActive ..

theorem PowerFrame.of_arriveData (m : DataMsg) (s : State) : PowerFrame s (arriveData m s) := by
  unfold arriveData
  split
  · exact (JobFrame.of_deliver m s).powerFrame
  · exact ⟨rfl, rfl⟩

theorem PowerFrame.of_handOver (p : PipeId) (s : State) : PowerFrame s (handOver p s) := by
  unfold handOver
  split
  · split
    · exact .refl s
    · split
      · split
        · split
          · exact ⟨rfl, rfl⟩
          · exact .refl s
        · exact .refl s
      · exact .refl s
  · exact .refl s

theorem JobFrame.of_takeResult (p : Pass) (j : Job) (res : PassResult) (s : State) :
    JobFrame s (takeResult p j res s) := by
  have hfreed : JobFrame s (releaseBuffer p.buffer (setJob p.tag (some j) s)) :=
    .trans (.of_setJob ..) (.of_releaseBuffer ..)
  unfold takeResult
  split
  · split
    · exact .trans (.of_setJob ..) (.of_setBuffer ..)
    · split
      · exact .trans (.of_setJob ..) (.of_setBuffer ..)
      · exact hfreed.trans (.of_stopJob ..)
  · exact hfreed

theorem PowerFrame.of_completePass (i : PipeId) (s : State) : PowerFrame s (completePass i s) := by
  unfold completePass
  split
  · exact .refl s
  · next p _ =>
    have hcounted : PowerFrame s (countUse p.slot s) := by
      rw [countUse_changes]
      exact ⟨rfl, rfl⟩
    refine hcounted.trans ?_
    simp only
    split
    · exact (JobFrame.of_releaseBuffer p.buffer (countUse p.slot s)).powerFrame.then_same rfl rfl
    · refine PowerFrame.trans ?_ (JobFrame.of_closeIfDone ..).powerFrame
      exact (JobFrame.of_takeResult ..).powerFrame.then_same rfl rfl

theorem PowerFrame.of_acceptSector (t : TagId) (s : State) : PowerFrame s (acceptSector t s) := by
  unfold acceptSector
  split
  · exact .refl s
  · split
    · split
      · exact (JobFrame.of_closeIfDone ..).powerFrame.after_same rfl rfl
      · exact .refl s
    · split
      · exact .refl s
      · exact PowerFrame.after_same
          ((JobFrame.of_releaseBuffer ..).powerFrame.trans (JobFrame.of_closeIfDone ..).powerFrame) rfl rfl

/-! ## The Extent Table -/

theorem PowerFrame.of_setNamespace (r : Request) (s : State) : PowerFrame s (setNamespace r s) := by
  unfold setNamespace
  split
  · exact ⟨rfl, rfl⟩
  · next a _ =>
    split
    · exact ⟨rfl, rfl⟩
    · have happlied : PowerFrame s (applyNamespace a s) := by
        unfold applyNamespace
        simp only
        split <;> exact ⟨rfl, rfl⟩
      exact happlied.then_same rfl rfl

theorem PowerFrame.of_defineExtent (r : Request) (s : State) : PowerFrame s (defineExtent r s) := by
  unfold defineExtent
  split
  · exact ⟨rfl, rfl⟩
  · split <;> exact ⟨rfl, rfl⟩

theorem PowerFrame.of_retireExtent (r : Request) (s : State) : PowerFrame s (retireExtent r s) := by
  unfold retireExtent
  split
  · exact ⟨rfl, rfl⟩
  · split <;> exact ⟨rfl, rfl⟩

theorem PowerFrame.of_setPolicy (r : Request) (s : State) : PowerFrame s (setPolicy r s) := by
  unfold setPolicy
  split
  · exact ⟨rfl, rfl⟩
  · next a _ =>
    split
    · exact ⟨rfl, rfl⟩
    · exact ⟨rfl, rfl⟩
    · next x _ _ =>
      have happlied : PowerFrame s (applyPolicy a x s) := by
        unfold applyPolicy
        simp only
        split
        · rw [policyToSlot_changes]
          exact ⟨rfl, rfl⟩
        · exact ⟨rfl, rfl⟩
      exact happlied.then_same rfl rfl

theorem PowerFrame.of_queryExtent (r : Request) (s : State) : PowerFrame s (queryExtent r s) := by
  unfold queryExtent
  split
  · exact ⟨rfl, rfl⟩
  · split <;> exact ⟨rfl, rfl⟩

theorem PowerFrame.of_querySlot (r : Request) (s : State) : PowerFrame s (querySlot r s) := by
  unfold querySlot
  split <;> exact ⟨rfl, rfl⟩

/-! ## Requests that reach keys -/

theorem PowerFrame.of_startRead (h : Handle) (s : State) : PowerFrame s (startRead h s) := by
  rw [startRead_eq]
  exact ⟨rfl, rfl⟩

theorem PowerFrame.of_startWrite (h : Handle) (r : KeyRecord) (s : State) : PowerFrame s (startWrite h r s) := by
  rw [startWrite_eq]
  exact ⟨rfl, rfl⟩

theorem PowerFrame.of_releaseExtent (c : ReleaseCause) (e : ExtentId) (s : State) :
    PowerFrame s (releaseExtent c e s) := by
  rw [releaseExtent_changes]
  exact ⟨rfl, rfl⟩

theorem PowerFrame.of_cutIf (cut : Bool) (named : Job → Bool) (r : CutReason) (s : State) :
    PowerFrame s (cutIf cut named r s) := by
  cases cut
  · exact .refl s
  · exact (JobFrame.of_cutJobs named r s).powerFrame

theorem PowerFrame.of_unlock (r : Request) (s : State) : PowerFrame s (unlock r s) := by
  unfold unlock
  split
  · exact ⟨rfl, rfl⟩
  · next a _ =>
    split
    · exact ⟨rfl, rfl⟩
    · next x _ =>
      split
      · exact ⟨rfl, rfl⟩
      · have hallocated : PowerFrame s (allocateIf (unlockSlot x s) a.extent s) := by
          cases unlockSlot x s <;> exact ⟨rfl, rfl⟩
        exact hallocated.trans ((PowerFrame.of_startRead ..).after_same rfl rfl)

theorem PowerFrame.of_lock (r : Request) (s : State) : PowerFrame s (lock r s) := by
  unfold lock
  split
  · exact ⟨rfl, rfl⟩
  · next a _ =>
    split
    · exact ⟨rfl, rfl⟩
    · have hreleased : ∀ u, PowerFrame u (releaseIf a.forget a.extent u) := by
        intro u
        cases a.forget
        · exact .refl u
        · exact .of_releaseExtent .forget a.extent u
      have hcut := PowerFrame.of_cutIf a.cut (lockNames a) .cutLock s
      unfold carryOutLock
      simp only
      generalize cutIf a.cut (lockNames a) .cutLock s = u at hcut ⊢
      have hkept := hcut.trans ((hreleased (updateExtent a.extent (Extent.locked a.dirs) u)).after_same rfl rfl)
      exact hkept.then_same rfl rfl

theorem PowerFrame.of_rewrap (r : Request) (s : State) : PowerFrame s (rewrap r s) := by
  unfold rewrap
  split
  · exact ⟨rfl, rfl⟩
  · split
    · exact ⟨rfl, rfl⟩
    · split
      · exact ⟨rfl, rfl⟩
      · exact (PowerFrame.of_startRead ..).after_same rfl rfl

theorem PowerFrame.of_erase (r : Request) (s : State) : PowerFrame s (erase r s) := by
  unfold erase
  split
  · exact ⟨rfl, rfl⟩
  · next a _ =>
    split
    · exact ⟨rfl, rfl⟩
    · have hcut := PowerFrame.of_cutIf a.cut (fun j => decide (j.extent = a.extent)) .cutErase s
      unfold carryOutErase
      simp only
      generalize cutIf a.cut _ .cutErase s = u at hcut ⊢
      have hreleased := hcut.trans (.of_releaseExtent .erase a.extent u)
      generalize releaseExtent .erase a.extent u = v at hreleased ⊢
      exact hreleased.trans ((PowerFrame.of_startWrite ..).after_same rfl rfl)

theorem PowerFrame.of_generate (r : Request) (s : State) : PowerFrame s (generate r s) := by
  unfold generate
  split
  · exact ⟨rfl, rfl⟩
  · split
    · exact ⟨rfl, rfl⟩
    · unfold generateOn
      split
      · exact ⟨rfl, rfl⟩
      · split
        · exact ⟨rfl, rfl⟩
        · split
          · exact ⟨rfl, rfl⟩
          · exact (PowerFrame.of_startWrite ..).after_same rfl rfl

/-! ## The other requests -/

theorem PowerFrame.of_setLink (r : Request) (s : State) : PowerFrame s (setLink r s) := by
  have hdrop : ∀ u, PowerFrame u (dropWithheld u) := by
    intro u
    unfold dropWithheld
    split
    · exact (JobFrame.of_overrun ..).powerFrame.after_same rfl rfl
    · exact .refl u
  unfold setLink
  split
  · exact ⟨rfl, rfl⟩
  · next a _ =>
    have happlied : PowerFrame s (applyLink a s) := (hdrop _).after_same rfl rfl
    exact happlied.then_same rfl rfl

theorem PowerFrame.of_setTick (r : Request) (s : State) : PowerFrame s (setTick r s) := by
  unfold setTick
  split
  · exact ⟨rfl, rfl⟩
  · rw [applyTick_eq]
    exact ⟨rfl, rfl⟩

/-! ## The ends of transactions -/

theorem PowerFrame.of_endRequest (n : RequestName) (seq : Byte) (c : ResultCode) (items : List Item) (s : State) :
    PowerFrame s (endRequest n seq c items s) :=
  ⟨rfl, rfl⟩

theorem PowerFrame.of_freeAllocated (k : Option SlotId) (s : State) : PowerFrame s (freeAllocated k s) := by
  cases k <;> exact ⟨rfl, rfl⟩

theorem PowerFrame.of_loadKey (k : SlotId) (e : ExtentId) (key : LoadedKey) (s : State) :
    PowerFrame s (loadKey k e key s) := by
  unfold loadKey
  split <;> exact ⟨rfl, rfl⟩

theorem PowerFrame.of_countTry (e : ExtentId) (s : State) : PowerFrame s (countTry e s) := by
  unfold countTry
  split
  · exact .refl s
  · simp only
    split <;> exact ⟨rfl, rfl⟩

theorem PowerFrame.of_unlockSound (e : ExtentId) (d : Directions) (slot : Option SlotId) (k : LoadedKey)
    (s : State) : PowerFrame s (unlockSound e d slot k s) := by
  cases slot with
  | none => exact ⟨rfl, rfl⟩
  | some n => exact (PowerFrame.of_loadKey n e k s).then_same rfl rfl

theorem PowerFrame.of_unlockEnd (seq : Byte) (e : ExtentId) (d : Directions) (slot : Option SlotId) (v : Verdict)
    (s : State) : PowerFrame s (unlockEnd seq e d slot v s) := by
  have hfreed := PowerFrame.of_freeAllocated slot s
  cases v with
  | sound k => exact (PowerFrame.of_unlockSound e d slot k s).trans (.of_endRequest ..)
  | badCredential => exact (hfreed.trans (.of_countTry e (freeAllocated slot s))).then_same rfl rfl
  | keyVoid => exact hfreed.then_same rfl rfl
  | recordBad => exact hfreed.then_same rfl rfl
  | link f => exact hfreed.then_same rfl rfl

theorem PowerFrame.of_rewrapProof (seq : Byte) (e : ExtentId) (h : Handle) (old new : Credential)
    (read : Except LinkFailure KeyRecord) (s : State) : PowerFrame s (rewrapProof seq e h old new read s) := by
  unfold rewrapProof
  split
  · simp only
    split
    · exact (PowerFrame.of_startWrite ..).after_same rfl rfl
    · exact ⟨rfl, rfl⟩
  · exact (PowerFrame.of_countTry e s).then_same rfl rfl
  · exact ⟨rfl, rfl⟩

theorem PowerFrame.of_readEnded (h : Handle) (read : Except LinkFailure KeyRecord) (s : State) :
    PowerFrame s (readEnded h read s) := by
  unfold readEnded
  split
  · split
    · exact .of_unlockEnd ..
    · exact .refl s
  · split
    · exact .of_rewrapProof ..
    · exact .refl s
  · exact .refl s

theorem PowerFrame.of_settleStale (e : ExtentId) (stale : Bool) (s : State) :
    PowerFrame s (settleStale e stale s) := by
  cases stale <;> exact ⟨rfl, rfl⟩

theorem PowerFrame.of_eraseWritten (seq : Byte) (e : ExtentId) (drain : Option SlotId) (w : WriteEnd)
    (s : State) : PowerFrame s (eraseWritten seq e drain w s) := by
  refine (PowerFrame.of_settleStale e (decide (w.outcome ≠ .verified)) s).trans ?_
  cases drain with
  | none => exact (JobFrame.of_answerErase ..).powerFrame
  | some k => exact ⟨rfl, rfl⟩

theorem PowerFrame.of_generateEnd (seq : Byte) (e : ExtentId) (d : Directions) (slot : SlotId) (w : WriteEnd)
    (s : State) : PowerFrame s (generateEnd seq e d slot w s) := by
  unfold generateEnd
  split
  · next k _ _ =>
    have hloaded : PowerFrame s (generateLoad e d slot k s) := (PowerFrame.of_loadKey slot e k s).then_same rfl rfl
    exact hloaded.trans (.of_endRequest ..)
  · exact ⟨rfl, rfl⟩

theorem PowerFrame.of_writeEnded (w : WriteEnd) (s : State) : PowerFrame s (writeEnded w s) := by
  unfold writeEnded
  split
  · exact ⟨rfl, rfl⟩
  · exact .of_eraseWritten ..
  · exact .of_generateEnd ..
  · exact .refl s

theorem PowerFrame.of_requestAbandoned (facts : WriteFacts) (s : State) :
    PowerFrame s (requestAbandoned facts s) := by
  unfold requestAbandoned
  rcases s.executing with _ | ⟨seq, r⟩
  · exact .refl s
  · cases r with
    | unlock e d slot => exact (PowerFrame.of_freeAllocated slot s).then_same rfl rfl
    | rewrap e proven => exact ⟨rfl, rfl⟩
    | erase e drain written => exact (PowerFrame.of_settleStale e _ s).then_same rfl rfl
    | generate e d slot => exact ⟨rfl, rfl⟩

end Sys2Proof.Machine
end

section
/-! PROOFS. HOLD (O59), and what every command leaves of the queue (O3). Only the locking step enters HOLD, and it
leaves every extent with lock on hold locked. A part in HOLD has no job and no executing request, so what its rules can
still do reaches neither the Job Table nor the Extent Table, but for an idle timer that locks an extent. -/

namespace Sys2Proof.Machine

/-! ## A part in HOLD (R162) -/

/-- No job, no executing request, and every extent with lock on hold locked and without a key. -/
structure HeldLocked (s : State) : Prop where
  jobs : ∀ t : TagId, s.jobs[t] = none
  idle : s.executing = none
  locked : ∀ (e : ExtentId) (x : Extent), s.extents[e] = some x → x.policy.lockOnHold = true →
    x.readLock = true ∧ x.writeLock = true ∧ x.key.isLive = false

/-- The invariant of a part that has power. -/
def HeldSound (s : State) : Prop :=
  s.power = .hold → HeldLocked s

theorem heldPartIsLocked_iff (s : State) : HeldPartIsLocked s ↔ (s.powered = true → HeldSound s) := by
  constructor
  · intro h hp hh
    obtain ⟨hjobs, hidle, hlocked⟩ := h hp hh
    exact ⟨hjobs, hidle, hlocked⟩
  · intro h hp hh
    obtain ⟨hjobs, hidle, hlocked⟩ := h hp hh
    exact ⟨hjobs, hidle, hlocked⟩

theorem HeldSound.of_power {s : State} (h : s.power ≠ .hold) : HeldSound s := fun hh => absurd hh h

theorem HeldLocked.of_same {s t : State} (h : HeldLocked s) (hj : t.jobs = s.jobs) (he : t.executing = s.executing)
    (hx : t.extents = s.extents) : HeldLocked t :=
  ⟨by rw [hj]; exact h.jobs, he.trans h.idle, by rw [hx]; exact h.locked⟩

/-- The queue of commands stays as it is, and the invariant is kept. -/
structure KeepsHold (s t : State) : Prop where
  pending : t.pending = s.pending
  sound : HeldSound s → HeldSound t

theorem KeepsHold.refl (s : State) : KeepsHold s s := ⟨rfl, id⟩

theorem KeepsHold.trans {s t u : State} (h : KeepsHold s t) (k : KeepsHold t u) : KeepsHold s u :=
  ⟨k.pending.trans h.pending, fun hs => k.sound (h.sound hs)⟩

/-- What leaves the power state leaves HOLD as it should be, if it does so in HOLD. -/
theorem KeepsHold.of_frame {s t : State} (h : PowerFrame s t)
    (hlocked : s.power = .hold → HeldLocked s → HeldLocked t) : KeepsHold s t :=
  ⟨h.pending, fun hs hh => hlocked (h.power.symm.trans hh) (hs (h.power.symm.trans hh))⟩

theorem KeepsHold.of_same {s t : State} (hp : t.power = s.power) (hq : t.pending = s.pending) (hj : t.jobs = s.jobs)
    (he : t.executing = s.executing) (hx : t.extents = s.extents) : KeepsHold s t :=
  .of_frame ⟨hp, hq⟩ fun _ h => h.of_same hj he hx

/-- What does nothing without an executing request does nothing in HOLD. -/
theorem KeepsHold.of_idle {s t : State} (h : PowerFrame s t) (hidle : s.executing = none → t = s) : KeepsHold s t :=
  .of_frame h fun _ hs => by
    rw [hidle hs.idle]
    exact hs

/-- What does nothing without a job does nothing in HOLD. -/
theorem KeepsHold.of_noJobs {s t : State} (h : PowerFrame s t) (hnone : (∀ i : TagId, s.jobs[i] = none) → t = s) :
    KeepsHold s t :=
  .of_frame h fun _ hs => by
    rw [hnone hs.jobs]
    exact hs

/-- The locking step leaves every extent with lock on hold locked and without a key. -/
theorem heldLocked_lockingStep {s : State} (hj : ∀ t : TagId, s.jobs[t] = none) (he : s.executing = none) :
    HeldLocked (lockingStep s) := by
  refine ⟨?_, ?_, fun e y hy hl => ?_⟩
  · rw [lockingStep_changes]
    exact hj
  · rw [lockingStep_changes]
    exact he
  · rw [lockingStep_extent] at hy
    obtain ⟨x, -, rfl⟩ := Option.map_eq_some_iff.1 hy
    rw [Extent.lockedForHold_policy] at hl
    exact Extent.lockedForHold_locked hl

theorem KeepsHold.of_lockingStepIfDue (s : State) : KeepsHold s (lockingStepIfDue s) := by
  unfold lockingStepIfDue
  split
  · next hdue =>
    obtain ⟨-, hj, he⟩ := (lockingStep_due_iff s).1 hdue
    refine ⟨?_, fun _ _ => heldLocked_lockingStep hj he⟩
    rw [lockingStep_changes]
  · exact .refl s

/-! ## Jobs and their sectors -/

/-- No opener is admitted in HOLD (R26). -/
theorem admission_of_hold (m : OpenerMsg) {s : State} (h : s.power = .hold) :
    ∃ c e, admission m s = .refuse c e := by
  unfold admission
  split
  · exact ⟨_, _, rfl⟩
  · split
    · exact ⟨_, _, rfl⟩
    · split
      · exact ⟨_, _, rfl⟩
      · rw [h]
        exact ⟨_, _, rfl⟩

theorem HeldLocked.emitCloser {s : State} (h : HeldLocked s) (c : Closer) : HeldLocked (emitCloser c s) := by
  unfold Machine.emitCloser
  split <;> exact h.of_same rfl rfl rfl

theorem KeepsHold.of_takeOpener (m : OpenerMsg) (s : State) : KeepsHold s (takeOpener m s) := by
  refine .of_frame (JobFrame.of_takeOpener m s).powerFrame fun hh hs => ?_
  obtain ⟨c, e, hrefused⟩ := admission_of_hold m hh
  simp only [takeOpener, hrefused]
  exact hs.emitCloser _

section
variable {s : State}

/-- Without jobs every message of the data channel is stray (R7). -/
theorem deliver_of_noJobs (h : ∀ t : TagId, s.jobs[t] = none) (m : DataMsg) : deliver m s = setFlag .stray s := by
  cases m with
  | unknown => rfl
  | sector m =>
    show deliverSector m s = _
    unfold deliverSector
    split
    · rfl
    · next t _ =>
      rw [h t]
      rfl

theorem handOver_of_noJobs (h : ∀ t : TagId, s.jobs[t] = none) (p : PipeId) : handOver p s = s := by
  unfold handOver
  split
  · split
    · rfl
    · next r _ _ => rw [h r.tag]
  · rfl

theorem acceptSector_of_noJobs (h : ∀ t : TagId, s.jobs[t] = none) (t : TagId) : acceptSector t s = s := by
  unfold acceptSector
  rw [h t]

/-- A buffer that becomes FREE makes no job. -/
theorem releaseBuffer_jobs_of_noJobs (h : ∀ t : TagId, s.jobs[t] = none) (b : BufferId) :
    (releaseBuffer b s).jobs = s.jobs := by
  unfold releaseBuffer
  split
  · rfl
  · next w _ =>
    unfold listSector
    split
    · rfl
    · next j hj =>
      have hnone : s.jobs[w.tag] = some j := hj
      rw [h w.tag] at hnone
      contradiction

end

theorem HeldLocked.releaseBuffer {s : State} (h : HeldLocked s) (b : BufferId) : HeldLocked (releaseBuffer b s) :=
  h.of_same (releaseBuffer_jobs_of_noJobs h.jobs b) (releaseBuffers_executing [b] s)
    (JobFrame.of_releaseBuffer b s).extents

theorem KeepsHold.of_deliver (m : DataMsg) (s : State) : KeepsHold s (deliver m s) := by
  refine .of_frame (JobFrame.of_deliver m s).powerFrame fun _ hs => ?_
  rw [deliver_of_noJobs hs.jobs]
  exact hs.of_same rfl rfl rfl

theorem KeepsHold.of_arriveData (m : DataMsg) (s : State) : KeepsHold s (arriveData m s) := by
  unfold arriveData
  split
  · exact .of_deliver m s
  · exact .of_same rfl rfl rfl rfl rfl

theorem KeepsHold.of_handOver (p : PipeId) (s : State) : KeepsHold s (handOver p s) :=
  .of_noJobs (.of_handOver p s) fun h => handOver_of_noJobs h p

/-- A pass that ends without its job frees its buffer. -/
theorem KeepsHold.of_completePass (i : PipeId) (s : State) : KeepsHold s (completePass i s) := by
  refine .of_frame (.of_completePass i s) fun _ hs => ?_
  unfold completePass
  split
  · exact hs
  · next p _ =>
    have hcounted : HeldLocked (countUse p.slot s) := by
      rw [countUse_changes]
      exact hs.of_same rfl rfl rfl
    simp only [hcounted.jobs p.tag]
    exact (hcounted.releaseBuffer p.buffer).of_same rfl rfl rfl

theorem KeepsHold.of_acceptSector (t : TagId) (s : State) : KeepsHold s (acceptSector t s) :=
  .of_noJobs (.of_acceptSector t s) fun h => acceptSector_of_noJobs h t

/-! ## Requests -/

theorem KeepsHold.of_answer (n : RequestName) (seq : Byte) (c : ResultCode) (items : List Item) (s : State) :
    KeepsHold s (answer n seq c items s) :=
  .of_same rfl rfl rfl rfl rfl

/-- A request that leaves the power state keeps HOLD: in HOLD it does not reach its own rule (R149). -/
theorem KeepsHold.of_takeRequest (n : RequestName) (seq : Byte) {own : State → State} {s : State}
    (hn : RequestName.alwaysAccepted n = false) (hown : PowerFrame s (own s)) :
    KeepsHold s (takeRequest n seq own s) := by
  unfold takeRequest
  split
  · exact .of_answer ..
  · rw [hn]
    simp only [Bool.false_eq_true, if_false]
    split
    · exact .of_answer ..
    · next hnone =>
      refine .of_frame hown fun hh _ => ?_
      rw [hh] at hnone
      contradiction

/-- The four requests of R149 change nothing but flags and what is sent. -/
theorem KeepsHold.of_takeRequest_always (n : RequestName) (seq : Byte) {own : State → State} {s : State}
    (hown : KeepsHold s (own s)) : KeepsHold s (takeRequest n seq own s) := by
  unfold takeRequest
  split
  · exact .of_answer ..
  · split
    · exact hown
    · split
      · exact .of_answer ..
      · exact hown

theorem KeepsHold.of_identify (r : Request) (s : State) : KeepsHold s (identify r s) := by
  unfold identify
  split <;> exact .of_answer ..

theorem KeepsHold.of_mapFlags (g : Fin 13 → EventFlag → EventFlag) (s : State) : KeepsHold s (mapFlags g s) :=
  .of_same rfl rfl rfl rfl rfl

theorem KeepsHold.of_readEvents (r : Request) (s : State) : KeepsHold s (readEvents r s) := by
  unfold readEvents
  split
  · exact (KeepsHold.of_mapFlags ..).trans (.of_answer ..)
  · exact .of_answer ..

theorem KeepsHold.of_clearEvents (r : Request) (s : State) : KeepsHold s (clearEvents r s) := by
  unfold clearEvents
  split
  · exact .of_answer ..
  · exact (KeepsHold.of_mapFlags ..).trans (.of_answer ..)

theorem KeepsHold.of_setEventEnables (r : Request) (s : State) : KeepsHold s (setEventEnables r s) := by
  unfold setEventEnables
  split
  · exact .of_answer ..
  · exact (KeepsHold.of_mapFlags ..).trans (.of_answer ..)

/-! ## The ends of transactions -/

theorem readEnded_of_idle (h : Handle) (read : Except LinkFailure KeyRecord) {s : State} (hs : s.executing = none) :
    readEnded h read s = s := by
  simp only [readEnded, hs]

theorem writeEnded_of_idle (w : WriteEnd) {s : State} (hs : s.executing = none) : writeEnded w s = s := by
  simp only [writeEnded, hs]

theorem requestAbandoned_of_idle (facts : WriteFacts) {s : State} (hs : s.executing = none) :
    requestAbandoned facts s = s := by
  simp only [requestAbandoned, hs]

theorem KeepsHold.of_readEnded (h : Handle) (read : Except LinkFailure KeyRecord) (s : State) :
    KeepsHold s (readEnded h read s) :=
  .of_idle (.of_readEnded h read s) (readEnded_of_idle h read)

theorem KeepsHold.of_writeEnded (w : WriteEnd) (s : State) : KeepsHold s (writeEnded w s) :=
  .of_idle (.of_writeEnded w s) (writeEnded_of_idle w)

theorem KeepsHold.of_requestAbandoned (facts : WriteFacts) (s : State) : KeepsHold s (requestAbandoned facts s) :=
  .of_idle (.of_requestAbandoned facts s) (requestAbandoned_of_idle facts)

theorem KeepsHold.of_beginAttempt (x : Transaction) (s : State) : KeepsHold s (beginAttempt x s) := by
  rw [beginAttempt_eq]
  exact .of_same rfl rfl rfl rfl rfl

/-- Without an executing request, the end of a transaction is the Link Master's alone. -/
theorem KeepsHold.of_endTransaction (x : Transaction) (r : TransactionResult) (rest : LinkState) (s : State) :
    KeepsHold s (endTransaction x r rest s) := by
  have hrest : ∀ op, KeepsHold s (clearTransaction rest op s) := fun _ => .of_same rfl rfl rfl rfl rfl
  have hflag : ∀ f op, KeepsHold s (flagFailure (.failed f) (clearTransaction rest op s)) := fun _ _ =>
    .of_same rfl rfl rfl rfl rfl
  unfold endTransaction
  simp only
  split
  · exact (hrest none).trans (.of_readEnded ..)
  · exact (hrest none).trans (.of_writeEnded ..)
  · exact (hrest _).trans (.of_beginAttempt ..)
  · exact (hflag _ none).trans (.of_readEnded ..)
  · exact (hflag _ none).trans (.of_writeEnded ..)
  · exact (hrest none).trans (.of_requestAbandoned ..)

/-! ## Events of the link -/

theorem KeepsHold.of_track (v : Tracking) (watch : Bool) (s : State) : KeepsHold s (track v watch s) :=
  .of_same rfl rfl rfl rfl rfl

theorem KeepsHold.of_linkFree (s : State) : KeepsHold s (linkFree s) := by
  rw [linkFree_changes]
  exact .of_same rfl rfl rfl rfl rfl

theorem KeepsHold.of_endRead (rest : KeyRecord) (s : State) : KeepsHold s (endRead rest s) := by
  unfold endRead
  split
  · exact .refl s
  · split
    · exact (KeepsHold.of_track ..).trans (.of_endTransaction ..)
    · exact .refl s

theorem KeepsHold.of_endWrite (s : State) : KeepsHold s (endWrite s) := by
  unfold endWrite
  split
  · exact .refl s
  · split
    · exact (KeepsHold.of_track ..).trans (.of_endTransaction ..)
    · exact .refl s

theorem KeepsHold.of_addressNacked (s : State) : KeepsHold s (addressNacked s) := by
  unfold addressNacked
  split
  · exact .refl s
  · split
    · simp only
      split
      · exact (KeepsHold.of_track ..).trans (.of_endTransaction ..)
      · exact .of_same rfl rfl rfl rfl rfl
    · exact .refl s

theorem KeepsHold.of_endPollWait (s : State) : KeepsHold s (endPollWait s) := by
  unfold endPollWait
  split
  · exact .of_beginAttempt ..
  · exact .refl s

theorem KeepsHold.of_dataNacked (b : NackedByte) (s : State) : KeepsHold s (dataNacked b s) := by
  unfold dataNacked
  split
  · exact .refl s
  · split
    · exact (KeepsHold.of_track ..).trans (.of_endTransaction ..)
    · exact .refl s

theorem KeepsHold.of_stretchOut (p : LinkPoint) (s : State) : KeepsHold s (stretchOut p s) := by
  unfold stretchOut
  split
  · exact .refl s
  · split
    · exact (KeepsHold.of_track ..).trans (.of_endTransaction ..)
    · exact .refl s

theorem KeepsHold.of_loseArbitration (x : Transaction) (s : State) : KeepsHold s (loseArbitration x s) := by
  unfold loseArbitration
  split
  · exact .of_beginAttempt ..
  · exact .of_endTransaction ..

theorem KeepsHold.of_collide (x : Transaction) (p : LinkPoint) (rest : KeyRecord) (s : State) :
    KeepsHold s (collide x p rest s) := by
  unfold collide
  split
  · exact .of_endTransaction ..
  · exact .of_endTransaction ..
  · exact .of_endTransaction ..
  · split
    · exact .of_endTransaction ..
    · exact .of_loseArbitration ..
  · exact .of_loseArbitration ..

theorem KeepsHold.of_meetCollision (p : LinkPoint) (rest : KeyRecord) (s : State) :
    KeepsHold s (meetCollision p rest s) := by
  have hbusy : KeepsHold s (trackBusy s) := .of_track ..
  unfold meetCollision
  split
  · exact .refl s
  · split
    · exact .refl s
    · split
      · exact hbusy.trans (.of_collide ..)
      · split
        · exact hbusy.trans (.of_endTransaction ..)
        · exact .refl s

theorem KeepsHold.of_freeWaitEnds (s : State) : KeepsHold s (freeWaitEnds s) := by
  unfold freeWaitEnds
  split
  · exact .of_endTransaction ..
  · exact .refl s

theorem KeepsHold.of_quiet (s : State) : KeepsHold s (quiet s) := by
  unfold quiet
  split
  · exact .of_linkFree s
  · exact .refl s

theorem KeepsHold.of_abandonedStop (s : State) : KeepsHold s (abandonedStop s) := by
  unfold abandonedStop
  split
  · exact .refl s
  · split
    · exact (KeepsHold.of_track ..).trans (.of_endTransaction ..)
    · exact .refl s

/-! ## Timers, the Random Source and time -/

theorem KeepsHold.of_countPeriod (s : State) : KeepsHold s (countPeriod s) := by
  unfold countPeriod
  split <;> exact .of_same rfl rfl rfl rfl rfl

theorem KeepsHold.of_reachPeriod (s : State) : KeepsHold s (reachPeriod s) := by
  rw [reachPeriod_takes_the_tick]
  exact .of_same rfl rfl rfl rfl rfl

/-- An extent is written that is locked and without a key, if its lock on hold asks for it. -/
theorem HeldLocked.setExtent {e : ExtentId} {y : Extent} {s : State} (h : HeldLocked s)
    (hy : y.policy.lockOnHold = true → y.readLock = true ∧ y.writeLock = true ∧ y.key.isLive = false) :
    HeldLocked (setExtent e (some y) s) := by
  refine ⟨h.jobs, h.idle, fun i x hx hl => ?_⟩
  rw [setExtent_extents, getElem_extents_set] at hx
  split_ifs at hx
  · cases hx
    exact hy hl
  · exact h.locked i x hx hl

theorem HeldLocked.releaseExtent {s : State} (h : HeldLocked s) (e : ExtentId) :
    HeldLocked (releaseExtent .forget e s) := by
  rcases hx : s.extents[e] with _ | x
  · have hsame : Machine.releaseExtent .forget e s = s := by simp only [Machine.releaseExtent, hx]
    rwa [hsame]
  · rw [releaseExtent_changes, releaseExtent_extents .forget hx]
    refine HeldLocked.of_same (h.setExtent (e := e) fun hl => ?_) rfl rfl rfl
    obtain ⟨hread, hwrite, hkey⟩ := h.locked e x hx hl
    refine ⟨hread, hwrite, ?_⟩
    show KeyStatus.isLive (if x.key.isLive = true then .none else x.key) = false
    rw [hkey]
    exact hkey

/-- An idle timer that expires locks its extent, or says so (R143, R144). -/
theorem KeepsHold.of_expire (e : ExtentId) (s : State) : KeepsHold s (expire e s) := by
  unfold expire
  split
  · next x _ hx =>
    split
    · refine .of_frame ?_ fun _ hs => ?_
      · unfold lockIdle
        simp only
        split
        · refine PowerFrame.then_same (t := releaseExtent .forget e (setExtent e _ s)) ?_ rfl rfl
          exact (PowerFrame.of_releaseExtent ..).after_same rfl rfl
        · exact ⟨rfl, rfl⟩
      · have hlocked : HeldLocked (setExtent e (some { x with readLock := true, writeLock := true }) s) :=
          hs.setExtent fun hl => by
            obtain ⟨-, -, hkey⟩ := hs.locked e x hx hl
            exact ⟨rfl, rfl, hkey⟩
        unfold lockIdle
        simp only
        split
        · exact (hlocked.releaseExtent e).of_same rfl rfl rfl
        · exact hlocked.of_same rfl rfl rfl
    · exact .of_same rfl rfl rfl rfl rfl
    · exact .refl s
  · exact .refl s

theorem KeepsHold.of_takeSample (s : State) : KeepsHold s (takeSample s) := by
  unfold takeSample
  split
  · exact .of_same rfl rfl rfl rfl rfl
  · exact .refl s

theorem KeepsHold.of_endWarmUp (s : State) : KeepsHold s (endWarmUp s) := by
  unfold endWarmUp
  split
  · exact .of_same rfl rfl rfl rfl rfl
  · exact .refl s

theorem KeepsHold.of_failRepetition (s : State) : KeepsHold s (failRepetition s) := by
  unfold failRepetition
  split
  · exact .refl s
  · exact .of_same rfl rfl rfl rfl rfl

theorem KeepsHold.of_timePasses (s : State) : KeepsHold s (timePasses s) := by
  have hdelivered : KeepsHold s (deliverNext s) := by
    unfold deliverNext
    split
    · next m rest _ _ =>
      have harrived : KeepsHold s { s with inbound := rest } := .of_same rfl rfl rfl rfl rfl
      exact (harrived.trans (.of_deliver m _)).trans (.of_lockingStepIfDue _)
    · exact .refl s
  have hadvanced : KeepsHold (deliverNext s) (advanceLink (deliverNext s)) := by
    rw [advanceLink_changes]
    exact .of_same rfl rfl rfl rfl rfl
  unfold timePasses
  split
  · exact (hdelivered.trans hadvanced).trans (.of_countPeriod _)
  · exact .refl s

/-! ## Power -/

theorem PowerFrame.of_abandonRequest (s : State) : PowerFrame s (abandonRequest s) := by
  unfold abandonRequest
  split
  · exact .refl s
  · split
    · exact .of_requestAbandoned ..
    · split
      · exact ⟨rfl, rfl⟩
      · exact (PowerFrame.of_requestAbandoned ..).after_same rfl rfl

theorem beginHoldEntry_power (s : State) : (beginHoldEntry s).power = .quiescing :=
  (PowerFrame.of_abandonRequest { s with power := .quiescing }).power

theorem KeepsHold.of_beginHoldEntry (s : State) : KeepsHold s (beginHoldEntry s) :=
  ⟨(PowerFrame.of_abandonRequest { s with power := .quiescing }).pending,
    fun _ => .of_power (by rw [beginHoldEntry_power]; nofun)⟩

/-- Another power state than HOLD is entered. -/
theorem KeepsHold.of_power {s t : State} (hq : t.pending = s.pending) (hp : t.power ≠ .hold) : KeepsHold s t :=
  ⟨hq, fun _ => .of_power hp⟩

theorem KeepsHold.of_endSelfCheck (s : State) : KeepsHold s (endSelfCheck s) := by
  unfold endSelfCheck
  split
  · exact .refl s
  · split
    · have hrun : KeepsHold s { s with power := .run } := .of_power rfl nofun
      split
      · exact hrun.trans (.of_beginHoldEntry _)
      · exact hrun
    · exact .of_power rfl nofun

theorem KeepsHold.of_endCheck (p : PipeId) (passed : Bool) (s : State) : KeepsHold s (endCheck p passed s) := by
  unfold endCheck
  split
  · refine KeepsHold.trans ?_ (.of_endSelfCheck _)
    cases passed <;> exact .of_same rfl rfl rfl rfl rfl
  · exact .refl s

theorem KeepsHold.of_expireDrain (s : State) : KeepsHold s (expireDrain s) := by
  unfold expireDrain
  split
  · next hq =>
    obtain ⟨hquiescing, -⟩ := hq
    have hframe := JobFrame.of_cutJobs (fun _ => true) .cutHold { s with drainTimer := none }
    simp only
    split
    · exact .of_same rfl rfl rfl rfl rfl
    · refine .of_power ?_ ?_
      · rw [setFlag_pending, hframe.pending]
      · rw [setFlag_power, hframe.power, hquiescing]
        nofun
  · exact .refl s

/-! ## Every command -/

/-- A command answers a next state with the same queue, in which the invariant is kept. -/
def AnswersHeld (s : State) (o : Host.Outcome State Fault Refusal) : Prop :=
  ∃ t, o = .next t ∧ t.pending = s.pending ∧ (HeldPartIsLocked s → HeldPartIsLocked t)

theorem AnswersHeld.of_rule {f : State → State} {s : State} (h : KeepsHold s (f s)) : AnswersHeld s (rule f s) := by
  cases hp : s.powered with
  | true =>
    refine ⟨f s, rule_of_powered f hp, h.pending, fun hs => ?_⟩
    rw [heldPartIsLocked_iff] at *
    exact fun _ => h.sound (hs hp)
  | false => exact ⟨s, rule_of_inert f hp, rfl, id⟩

theorem AnswersHeld.of_closingRule {f : State → State} {s : State} (h : KeepsHold s (f s)) :
    AnswersHeld s (closingRule f s) :=
  .of_rule (f := fun u => lockingStepIfDue (f u)) (h.trans (.of_lockingStepIfDue _))

/-- A part without power, and one in another power state than HOLD, meets the invariant. -/
theorem heldPartIsLocked_of_power {s : State} (h : s.powered = true → s.power ≠ .hold) : HeldPartIsLocked s :=
  (heldPartIsLocked_iff s).2 fun hp => .of_power (h hp)

theorem setLine_pending (l : SupplyLine) (v : Bool) (s : State) : (setLine l v s).pending = s.pending := by
  cases l <;> rfl

theorem dropLine_pending (l : SupplyLine) (s : State) : (dropLine l s).pending = s.pending := by
  unfold dropLine
  split
  · split <;> exact setLine_pending l false s
  · rfl

theorem raiseLine_pending (l : SupplyLine) (s : State) : (raiseLine l s).pending = s.pending := by
  unfold raiseLine
  split
  · rfl
  · simp only
    split <;> exact setLine_pending l true s

theorem startCold_power (s : State) : (startCold s).power = .starting := rfl

/-- A line that rises makes a cold start, or leaves the part without power. -/
theorem AnswersHeld.of_raiseLine (l : SupplyLine) (s : State) : AnswersHeld s (.next (raiseLine l s)) := by
  refine ⟨_, rfl, raiseLine_pending l s, fun h => ?_⟩
  unfold raiseLine
  split
  · exact h
  · simp only
    split
    · exact heldPartIsLocked_of_power fun _ => by rw [startCold_power]; nofun
    · next hp => exact heldPartIsLocked_of_power fun hp' => absurd hp' hp

theorem AnswersHeld.of_dropLine (l : SupplyLine) (s : State) : AnswersHeld s (.next (dropLine l s)) := by
  refine ⟨_, rfl, dropLine_pending l s, fun h => ?_⟩
  cases hl : lineLevel l s with
  | true => exact heldPartIsLocked_of_power fun hp => by simp [dropLine_powered hl] at hp
  | false =>
    have hsame : dropLine l s = s := by simp [dropLine, hl]
    rwa [hsame]

/-- A level of HOLD that rises begins hold entry in RUN (R160). -/
theorem AnswersHeld.of_raiseHold (s : State) : AnswersHeld s (.next (raiseHold s)) := by
  have hrisen : KeepsHold s { s with holdLevel := true } := .of_same rfl rfl rfl rfl rfl
  have hentered := (hrisen.trans (.of_beginHoldEntry _)).trans (.of_lockingStepIfDue _)
  unfold raiseHold
  split
  · exact ⟨s, rfl, rfl, id⟩
  · simp only
    split
    · next hrun =>
      obtain ⟨hp, -⟩ := hrun
      refine ⟨_, rfl, hentered.pending, fun h => ?_⟩
      rw [heldPartIsLocked_iff] at *
      exact fun _ => hentered.sound (h hp)
    · refine ⟨_, rfl, rfl, fun h => ?_⟩
      rw [heldPartIsLocked_iff] at *
      exact fun hp => hrisen.sound (h hp)

/-- A level of HOLD that falls ends HOLD (R163). -/
theorem AnswersHeld.of_dropHold (s : State) : AnswersHeld s (.next (dropHold s)) := by
  have hfallen : KeepsHold s { s with holdLevel := false } := .of_same rfl rfl rfl rfl rfl
  unfold dropHold
  split
  · simp only
    split
    · exact ⟨_, rfl, rfl, fun _ => heldPartIsLocked_of_power fun _ => nofun⟩
    · refine ⟨_, rfl, rfl, fun h => ?_⟩
      rw [heldPartIsLocked_iff] at *
      exact fun hp => hfallen.sound (h hp)
  · exact ⟨s, rfl, rfl, id⟩

/-- A request that leaves the power state, and is not one of the four of R149. -/
theorem AnswersHeld.of_request (n : RequestName) (seq : Byte) {own : State → State} {s : State}
    (hn : RequestName.alwaysAccepted n = false) (hown : PowerFrame s (own s)) :
    AnswersHeld s (rule (takeRequest n seq own) s) :=
  .of_rule (.of_takeRequest n seq hn hown)

theorem exec_answersHeld (c : Instr) (s : State) : AnswersHeld s (exec c s) := by
  cases c with
  | jobOpener m => exact .of_rule (.of_takeOpener m s)
  | sectorIn m => exact .of_closingRule (.of_arriveData (.sector m) s)
  | handOver p => exact .of_rule (.of_handOver p s)
  | pipeCompletion p => exact .of_closingRule (.of_completePass p s)
  | sectorOut i => exact .of_closingRule (.of_acceptSector i s)
  | identify r => exact .of_rule (.of_takeRequest_always _ _ (.of_identify r s))
  | setNamespace r => exact .of_request _ _ rfl (.of_setNamespace r s)
  | defineExtent r => exact .of_request _ _ rfl (.of_defineExtent r s)
  | retireExtent r => exact .of_request _ _ rfl (.of_retireExtent r s)
  | setPolicy r => exact .of_request _ _ rfl (.of_setPolicy r s)
  | queryExtent r => exact .of_request _ _ rfl (.of_queryExtent r s)
  | querySlot r => exact .of_request _ _ rfl (.of_querySlot r s)
  | unlock r => exact .of_request _ _ rfl (.of_unlock r s)
  | lock r => exact .of_request _ _ rfl (.of_lock r s)
  | rewrap r => exact .of_request _ _ rfl (.of_rewrap r s)
  | erase r => exact .of_request _ _ rfl (.of_erase r s)
  | generate r => exact .of_request _ _ rfl (.of_generate r s)
  | setLink r => exact .of_request _ _ rfl (.of_setLink r s)
  | setTick r => exact .of_request _ _ rfl (.of_setTick r s)
  | readEvents r => exact .of_rule (.of_takeRequest_always _ _ (.of_readEvents r s))
  | clearEvents r => exact .of_rule (.of_takeRequest_always _ _ (.of_clearEvents r s))
  | setEventEnables r => exact .of_rule (.of_takeRequest_always _ _ (.of_setEventEnables r s))
  | unknownRequest code seq => exact .of_rule (.of_same rfl rfl rfl rfl rfl)
  | unknownMessageType channel m =>
    cases channel with
    | control => exact .of_rule (.of_same rfl rfl rfl rfl rfl)
    | data => exact .of_rule (.of_arriveData .unknown s)
  | readRecordEnd rest => exact .of_rule (.of_endRead rest s)
  | writeRecordEnd => exact .of_rule (.of_endWrite s)
  | addressNotAcknowledged => exact .of_rule (.of_addressNacked s)
  | pollWaitEnd => exact .of_rule (.of_endPollWait s)
  | nackData b => exact .of_rule (.of_dataNacked b s)
  | stretchTimeout p => exact .of_closingRule (.of_stretchOut p s)
  | collision p rest => exact .of_closingRule (.of_meetCollision p rest s)
  | freeWaitExpiry => exact .of_rule (.of_freeWaitEnds s)
  | otherMasterStart => exact .of_rule (.of_track ..)
  | stopObserved => exact .of_rule (.of_linkFree s)
  | releaseWatchQuiet => exact .of_rule (.of_quiet s)
  | tick => exact .of_rule (.of_reachPeriod s)
  | idleExpiry e => exact .of_rule (.of_expire e s)
  | randomSample => exact .of_rule (.of_takeSample s)
  | warmUpEnd => exact .of_rule (.of_endWarmUp s)
  | repetitionTestFailure => exact .of_rule (.of_failRepetition s)
  | coldStart l => exact .of_raiseLine l s
  | selfCheckEnd p passed => exact .of_closingRule (.of_endCheck p passed s)
  | powerGoodFalling l => exact .of_dropLine l s
  | holdRises => exact .of_raiseHold s
  | holdFalls => exact .of_dropHold s
  | drainTimerExpiry => exact .of_closingRule (.of_expireDrain s)
  | abandonedStopCompletes => exact .of_closingRule (.of_abandonedStop s)

/-- Settles O59: only the locking step enters HOLD, and in HOLD nothing makes a job, takes a request, or unlocks an
extent. -/
theorem stepKeepsHeldPartLocked : Obligations.StepKeepsHeldPartLocked := by
  unfold Obligations.StepKeepsHeldPartLocked
  intro s t h ht
  rcases hq : s.pending with _ | ⟨c, rest⟩
  · rw [step_of_empty hq] at ht
    cases ht
    have hkept := KeepsHold.of_timePasses s
    rw [heldPartIsLocked_iff] at *
    intro hp
    cases hps : s.powered with
    | true => exact hkept.sound (h hps)
    | false =>
      have hinert : timePasses s = s := by simp [timePasses, hps]
      simp [hinert, hps] at hp
  · rw [step_of_pending hq] at ht
    obtain ⟨u, hu, -, hkept⟩ := exec_answersHeld c { s with pending := rest }
    rw [hu] at ht
    cases ht
    exact hkept h

/-! ## Commands of an inert part (R159) -/

section
variable {s : State}

theorem dropLine_of_inert (l : SupplyLine) (hp : s.powered = false) : dropLine l s = setLine l false s := by
  unfold dropLine
  split
  · simp [hp]
  · next hlow =>
    cases l <;> simp only [lineLevel, Bool.not_eq_true] at hlow <;> simp only [setLine, ← hlow]

theorem raiseHold_of_inert (hp : s.powered = false) : raiseHold s = { s with holdLevel := true } := by
  have hp' : State.powered { s with holdLevel := true } = false := hp
  unfold raiseHold
  split
  · next hhigh => rw [← hhigh]
  · simp [hp']

theorem dropHold_of_inert (hp : s.powered = false) : dropHold s = { s with holdLevel := false } := by
  have hp' : State.powered { s with holdLevel := false } = false := hp
  unfold dropHold
  split
  · simp [hp']
  · next hlow =>
    rw [Bool.not_eq_true] at hlow
    rw [← hlow]

end

theorem closingRule_of_inert (f : State → State) {s : State} (h : s.powered = false) : closingRule f s = .next s :=
  rule_of_inert _ h

/-- Settles O3: every command is one rule, which answers a next state and leaves the queue; in an inert part it takes
nothing, but for the levels of the input lines. -/
theorem noCommandStopsThePart : Obligations.NoCommandStopsThePart := by
  unfold Obligations.NoCommandStopsThePart
  refine ⟨fun c s => ?_, fun c s hp => ?_⟩
  · obtain ⟨t, ht, hpending, -⟩ := exec_answersHeld c s
    exact ⟨t, ht, hpending⟩
  · cases c with
    | coldStart l => trivial
    | powerGoodFalling l => cases l <;> exact congrArg _ (dropLine_of_inert _ hp)
    | holdRises => exact congrArg _ (raiseHold_of_inert hp)
    | holdFalls => exact congrArg _ (dropHold_of_inert hp)
    | sectorIn _ | pipeCompletion _ | sectorOut _ | stretchTimeout _ | collision _ _ | selfCheckEnd _ _
    | drainTimerExpiry | abandonedStopCompletes => exact closingRule_of_inert _ hp
    | unknownMessageType channel m => cases channel <;> exact rule_of_inert _ hp
    | _ => exact rule_of_inert _ hp

end Sys2Proof.Machine
end

section
/-! PROOFS. Cold start and the invariants after it (O50, O60), and loss of power (O51). -/

namespace Sys2Proof.Machine

/-! ## Cold start (R157) -/

section
variable {s : State}

/-- COLD_START is SET and enabled after a cold start, so ATTN is asserted. -/
theorem startCold_eq (hp : s.powered = true) :
    startCold s = { s with toBlocks := State.reset.toBlocks, attn := true } := by
  have hattn : (startCold s).attn = true :=
    attn_of_enabledFlag (f := .coldStart) (refreshAttn_follows _) hp rfl rfl
  rw [← hattn]
  rfl

/-- The line that rises last leaves both high and replaces every block. -/
theorem raiseLine_eq_coldStart {l : SupplyLine} (hlow : lineLevel l s = false)
    (hp : (setLine l true s).powered = true) :
    raiseLine l s = { s with toBlocks := State.reset.toBlocks, powerGood := true, resetN := true, attn := true } := by
  have hlines : setLine l true s = { s with powerGood := true, resetN := true } := by
    obtain ⟨hgood, hreset⟩ := (powered_iff _).1 hp
    cases l <;> simp_all [setLine]
  rw [raiseLine_of_lastLow hlow hp, startCold_eq hp, hlines]

/-- A line that rises while the other stays low starts nothing. -/
theorem raiseLine_of_otherLow {l : SupplyLine} (hlow : lineLevel l s = false)
    (hp : (setLine l true s).powered = false) : raiseLine l s = setLine l true s := by
  simp [raiseLine, hlow, hp]

end

theorem reset_extents (e : ExtentId) : State.reset.extents[e] = none := by
  simp [State.reset, Blocks.coldStart]

/-- Settles O50: the line that rises last replaces every block by its cold start value. -/
theorem coldStartSetsEveryBlock : Obligations.ColdStartSetsEveryBlock := by
  unfold Obligations.ColdStartSetsEveryBlock
  refine ⟨fun l s hlow => ?_, fun s hgood hreset => ⟨?_, ?_⟩, fun t => ?_, fun b => ?_, rfl, rfl, rfl, fun n => ?_,
    fun e => ⟨reset_extents e, ?_⟩, fun k => ?_, fun p => ?_, rfl, rfl, rfl, rfl, rfl, rfl, rfl, rfl, rfl, fun f => ?_⟩
  · have hline : lineLevel l s = false ∧ (setLine l true s).powered = true := by
      cases l with
      | powerGood => exact ⟨hlow.1, (powered_iff _).2 ⟨rfl, hlow.2⟩⟩
      | resetN => exact ⟨hlow.2, (powered_iff _).2 ⟨hlow.1, rfl⟩⟩
    obtain ⟨hl, hp⟩ := hline
    exact congrArg _ (raiseLine_eq_coldStart hl hp)
  · exact congrArg _ (raiseLine_of_otherLow (l := .powerGood) hgood (by simp [setLine, State.powered, hreset]))
  · exact congrArg _ (raiseLine_of_otherLow (l := .resetN) hreset (by simp [setLine, State.powered, hgood]))
  · simp [State.reset, Blocks.coldStart]
  · simp [State.reset, Blocks.coldStart, Buffer.empty]
  · simp [State.reset, Blocks.coldStart]
  · simp [State.reset, Blocks.coldStart]
  · simp [State.reset, Blocks.coldStart, Slot.empty]
  · simp [State.reset, Blocks.coldStart, Pipe.coldStart]
  · cases f <;> rfl

/-- Settles O60: COLD_START is SET and enabled, no extent is DEFINED, and the power state is STARTING. -/
theorem resetHasTheInvariants : Obligations.ResetHasTheInvariants := by
  unfold Obligations.ResetHasTheInvariants
  refine ⟨?_, (triesWithinLimit_iff _).2 fun _ => (triesHeld_startCold State.reset).of_same rfl rfl, ?_⟩
  · exact ⟨fun _ => ⟨rfl, rfl, Flag.coldStart.idx, rfl, rfl⟩, fun _ => rfl⟩
  · exact heldPartIsLocked_of_power fun _ => nofun

/-! ## Loss of power (R159) -/

/-- No key is left in a slot that is zeroized. -/
theorem Slot.zeroized_block {v : Slot} {key : LoadedKey}
    (h : v.zeroized.state = .draining key ∨ ∃ e, v.zeroized.state = .ready e key) : key.block = 0 := by
  unfold Slot.zeroized at h
  split at h
  · obtain h | ⟨e, h⟩ := h
    · contradiction
    · cases h
      rfl
  · obtain h | ⟨e, h⟩ := h
    · cases h
      rfl
    · contradiction
  · next hready hdraining =>
    obtain h | ⟨e, h⟩ := h
    · exact absurd h (hdraining key)
    · exact absurd h (hready e key)

/-- A line that falls in a running part stops it. -/
theorem dropLine_of_powered (l : SupplyLine) {s : State} (hp : s.powered = true) :
    dropLine l s = stopPart (setLine l false s) := by
  obtain ⟨hgood, hreset⟩ := (powered_iff s).1 hp
  have hhigh : lineLevel l s = true := by cases l <;> assumption
  simp only [dropLine, hhigh, hp, if_true]

/-- Settles O51: the blocks of a part that has stopped are a free value with all key material zeroized. -/
theorem powerLossZeroizes : Obligations.PowerLossZeroizes := by
  unfold Obligations.PowerLossZeroizes
  intro l s hp
  have hlow : (stopPart (setLine l false s)).powered = false := by
    rw [← dropLine_of_powered l hp]
    exact dropLine_powered (by obtain ⟨hgood, hreset⟩ := (powered_iff s).1 hp; cases l <;> assumption)
  refine ⟨stopPart (setLine l false s), congrArg _ (dropLine_of_powered l hp), hlow,
    attn_of_inert (refreshAttn_follows _) hlow, fun k key h => ?_, fun p => ?_, rfl, rfl, rfl, ?_, ?_⟩
  · simp only [stopPart, refreshAttn_slots, Blocks.zeroized, Fin.getElem_fin, Vector.getElem_ofFn] at h
    exact Slot.zeroized_block h
  · simp only [stopPart, refreshAttn_pipes, Blocks.zeroized, Fin.getElem_fin, Vector.getElem_ofFn]
    rfl
  · simp [linesReleased, hlow]
  · cases l <;> exact ⟨rfl, rfl, rfl, rfl⟩

end Sys2Proof.Machine
end

section
/-! PROOFS. The end of the self-checks (O52), hold entry and its end (O53), and the drain expiry (O56). -/

namespace Sys2Proof.Machine

/-! ## The self-check (R158) -/

section
variable {p : PipeId} {passed : Bool} {s : State}

theorem checksPending_iff (s : State) : checksPending s = true ↔ ∃ q : PipeId, s.pipes[q].checkPending = true := by
  simp [checksPending]

theorem somePipe_iff (s : State) : somePipe s = true ↔ ∃ q : PipeId, s.pipes[q].inService = true := by
  simp [somePipe]

/-- The part after one pipe's check, before it is decided whether this was the last. -/
def afterCheck (p : PipeId) (passed : Bool) (s : State) : State :=
  if passed then setPipe p (checkedPipe passed s.pipes[p]) s
  else setFlag .selfCheckFail (setPipe p (checkedPipe passed s.pipes[p]) s)

theorem afterCheck_pipes (p : PipeId) (passed : Bool) (s : State) :
    (afterCheck p passed s).pipes = s.pipes.set p (checkedPipe passed s.pipes[p]) := by
  cases passed <;> rfl

theorem checksPending_afterCheck :
    checksPending (afterCheck p passed s) = true ↔ ∃ q : PipeId, q ≠ p ∧ s.pipes[q].checkPending = true := by
  rw [checksPending_iff, afterCheck_pipes]
  refine exists_congr fun q => ?_
  by_cases h : q = p
  · subst h
    simp [checkedPipe]
  · simp [h, Fin.val_ne_of_ne (Ne.symm h)]

theorem endSelfCheck_of_pending (h : checksPending s = true) : endSelfCheck s = s := if_pos h

theorem endSelfCheck_of_allFailed (h : ¬checksPending s = true) (hn : ¬somePipe s = true) :
    endSelfCheck s = { s with power := .failed } := by
  rw [endSelfCheck, if_neg h, if_neg hn]

theorem endSelfCheck_of_passed (h : ¬checksPending s = true) (hs : somePipe s = true) (hl : s.holdLevel = false) :
    endSelfCheck s = { s with power := .run } := by
  rw [endSelfCheck, if_neg h, if_pos hs, if_neg (by rw [hl]; nofun)]

/-- With HOLD high, RUN is left for hold entry at once (R156). -/
theorem endSelfCheck_of_passed_held (h : ¬checksPending s = true) (hs : somePipe s = true)
    (hl : s.holdLevel = true) : endSelfCheck s = beginHoldEntry { s with power := .run } := by
  rw [endSelfCheck, if_neg h, if_pos hs, if_pos hl]

theorem exec_selfCheckEnd (passed : Bool) (hp : s.powered = true) (hstarting : s.power = .starting)
    (hpending : s.pipes[p].checkPending = true) :
    exec (.selfCheckEnd p passed) s = .next (lockingStepIfDue (endSelfCheck (afterCheck p passed s))) := by
  refine (closingRule_of_powered _ hp).trans ?_
  rw [endCheck, if_pos ⟨hstarting, hpending⟩]
  rfl

end

/-! ## Hold entry (R160) -/

/-- Hold entry has begun: QUIESCING, and the drain timer starts at the drain limit. -/
def quiescing (s : State) : State :=
  { s with power := .quiescing, drainTimer := some { remaining := s.drainLimit, captured := s.drainLimit } }

section
variable {s : State}

/-- The end of an abandoned request does not read the drain timer. -/
theorem requestAbandoned_drainTimer (f : WriteFacts) (d : Option DrainTimer) (s : State) :
    requestAbandoned f { s with drainTimer := d } = { requestAbandoned f s with drainTimer := d } := by
  rcases hx : s.executing with _ | ⟨seq, r⟩
  · simp only [requestAbandoned, hx]
  · cases r with
    | unlock e dirs slot => cases slot <;> simp only [requestAbandoned, hx] <;> rfl
    | rewrap e proven => simp only [requestAbandoned, hx]; rfl
    | erase e drain written =>
      simp only [requestAbandoned, hx]
      cases decide ((eraseFacts written f).phase ≠ .verified) <;> rfl
    | generate e dirs slot => simp only [requestAbandoned, hx]; rfl

/-- The end of an abandoned request writes what belongs to the request. -/
theorem requestAbandoned_changes (f : WriteFacts) (s : State) :
    requestAbandoned f s =
      { s with extents := (requestAbandoned f s).extents, slots := (requestAbandoned f s).slots
               context := (requestAbandoned f s).context, executing := (requestAbandoned f s).executing
               flags := (requestAbandoned f s).flags, attn := (requestAbandoned f s).attn
               outControl := (requestAbandoned f s).outControl } := by
  rcases hx : s.executing with _ | ⟨seq, r⟩
  · simp only [requestAbandoned, hx]
    rw [← hx]
  · cases r with
    | unlock e dirs slot => cases slot <;> simp only [requestAbandoned, hx] <;> rfl
    | rewrap e proven => simp only [requestAbandoned, hx]; rfl
    | erase e drain written =>
      simp only [requestAbandoned, hx]
      cases decide ((eraseFacts written f).phase ≠ .verified) <;> rfl
    | generate e dirs slot => simp only [requestAbandoned, hx]; rfl

theorem abandonRequest_of_idle (h : s.executing = none) : abandonRequest s = s := by
  simp [abandonRequest, h]

/-- Without a transaction the request ends at once (R160). -/
theorem abandonRequest_of_unlinked (hx : s.executing.isSome = true) (hw : s.link.transaction = none) :
    abandonRequest s = requestAbandoned (factsOf s.link.operation) s := by
  have hnone : s.executing.isNone = false := by simpa using hx
  simp only [abandonRequest, hnone, hw, Bool.false_eq_true, if_false]

/-- A transaction that holds the link is marked, and goes on to its stop (R135). -/
theorem abandonRequest_of_holding {w : Transaction} (hx : s.executing.isSome = true)
    (hw : s.link.transaction = some w) (hl : s.link.state.holdsLink = true) :
    abandonRequest s = { s with link := { s.link with transaction := some { w with abandoning := true } } } := by
  have hnone : s.executing.isNone = false := by simpa using hx
  simp only [abandonRequest, hnone, hw, hl, Bool.false_eq_true, if_false, if_true]
  rfl

/-- A transaction that waits off the link ends at once. -/
theorem abandonRequest_of_waiting {w : Transaction} (hx : s.executing.isSome = true)
    (hw : s.link.transaction = some w) (hl : s.link.state.holdsLink = false) :
    abandonRequest s =
      requestAbandoned (factsReached w s.link.operation)
        { s with link := rested .idle s.link.tracking s.link.releaseWatch s.link } := by
  have hnone : s.executing.isNone = false := by simpa using hx
  simp only [abandonRequest, hnone, hw, hl, Bool.false_eq_true, if_false]
  rw [endTransaction_abandoned, requestAbandoned_eq]
  rfl

/-- To abandon a request neither reads nor writes the drain timer, and keeps its limit. -/
theorem abandonRequest_drainTimer (d : Option DrainTimer) (s : State) :
    abandonRequest { s with drainTimer := d } = { abandonRequest s with drainTimer := d } ∧
      (abandonRequest s).drainLimit = s.drainLimit := by
  have hlimit : ∀ (f : WriteFacts) (u : State), (requestAbandoned f u).drainLimit = u.drainLimit := fun f u => by
    rw [requestAbandoned_changes]
  by_cases he : s.executing = none
  · rw [abandonRequest_of_idle he, abandonRequest_of_idle (s := { s with drainTimer := d }) he]
    exact ⟨rfl, rfl⟩
  · have hx : s.executing.isSome = true := Option.isSome_iff_ne_none.2 he
    obtain hw | ⟨w, hw⟩ := Option.eq_none_or_eq_some s.link.transaction
    · rw [abandonRequest_of_unlinked hx hw, abandonRequest_of_unlinked (s := { s with drainTimer := d }) hx hw]
      exact ⟨requestAbandoned_drainTimer _ d s, hlimit _ s⟩
    · cases hl : s.link.state.holdsLink with
      | true =>
        rw [abandonRequest_of_holding hx hw hl, abandonRequest_of_holding (s := { s with drainTimer := d }) hx hw hl]
        exact ⟨rfl, rfl⟩
      | false =>
        rw [abandonRequest_of_waiting hx hw hl, abandonRequest_of_waiting (s := { s with drainTimer := d }) hx hw hl]
        exact ⟨requestAbandoned_drainTimer _ d { s with link := _ }, hlimit _ _⟩

/-- Whether the drain timer starts before or after the request is abandoned is the same. -/
theorem beginHoldEntry_eq (s : State) : beginHoldEntry s = abandonRequest (quiescing s) := by
  obtain ⟨htimer, hlimit⟩ := abandonRequest_drainTimer
    (some { remaining := s.drainLimit, captured := s.drainLimit }) { s with power := .quiescing }
  refine Eq.trans ?_ htimer.symm
  simp only [beginHoldEntry, hlimit]

end

/-- Settles O52: a check that is not the last leaves the part in STARTING; the last one gives RUN, from which a high
level of HOLD enters HOLD at once, or FAILED. -/
theorem selfCheckDecidesPowerState : Obligations.SelfCheckDecidesPowerState := by
  unfold Obligations.SelfCheckDecidesPowerState
  intro p passed s hp hstarting hpending
  rw [exec_selfCheckEnd passed hp hstarting hpending]
  intro one checked others some_
  have hchecked : afterCheck p passed s = checked := rfl
  have hothers : checksPending checked = true ↔ others := checksPending_afterCheck
  have hsome : somePipe checked = true ↔ some_ := by
    rw [somePipe_iff, ← hchecked, afterCheck_pipes]
    rfl
  have hsame : checked.power = .starting ∧ checked.holdLevel = s.holdLevel ∧ checked.jobs = s.jobs ∧
      checked.executing = s.executing := by
    rw [← hchecked]
    cases passed <;> exact ⟨hstarting, rfl, rfl, rfl⟩
  obtain ⟨hpower, hlevel, hjobs, hexecuting⟩ := hsame
  rw [hchecked]
  refine ⟨fun h => ?_, fun h hn => ?_, fun h hs hl => ?_, fun h hs hl hj he => ?_⟩
  · rw [endSelfCheck_of_pending (hothers.2 h), lockingStepIfDue_of_power (by rw [hpower]; nofun)]
  · rw [endSelfCheck_of_allFailed (mt hothers.1 h) (mt hsome.1 hn),
      lockingStepIfDue_of_power (show PowerState.failed ≠ .quiescing by nofun)]
  · rw [endSelfCheck_of_passed (mt hothers.1 h) (hsome.2 hs) (hlevel.trans hl),
      lockingStepIfDue_of_power (show PowerState.run ≠ .quiescing by nofun)]
  · have hidle : (quiescing { checked with power := .run }).executing = none := hexecuting.trans he
    have hempty : ∀ t : TagId, (quiescing { checked with power := .run }).jobs[t] = none := by
      show ∀ t : TagId, checked.jobs[t] = none
      rw [hjobs]
      exact hj
    rw [endSelfCheck_of_passed_held (mt hothers.1 h) (hsome.2 hs) (hlevel.trans hl), beginHoldEntry_eq,
      abandonRequest_of_idle hidle, lockingStepIfDue_of_due rfl hempty hidle]
    refine ⟨_, rfl, ?_, lockingStep_drainTimer _, ?_, ?_⟩
    · rw [lockingStep_power]
      exact if_pos (hlevel.trans hl)
    · rw [lockingStep_changes]
      rfl
    · rw [lockingStep_changes]
      rfl

/-! ## HOLD rises and falls (R156, R160, R163) -/

section
variable {s : State}

theorem exec_holdRises_of_run (hp : s.powered = true) (hl : s.holdLevel = false) (hrun : s.power = .run) :
    exec .holdRises s = .next (lockingStepIfDue (abandonRequest (quiescing { s with holdLevel := true }))) := by
  refine congrArg Host.Outcome.next ?_
  rw [raiseHold, hl, if_neg nofun, if_pos ⟨hp, hrun⟩, beginHoldEntry_eq]

theorem exec_holdRises_of_other (hl : s.holdLevel = false) (hrun : s.power ≠ .run) :
    exec .holdRises s = .next { s with holdLevel := true } := by
  refine congrArg Host.Outcome.next ?_
  rw [raiseHold, hl, if_neg nofun, if_neg fun h => hrun h.2]

theorem exec_holdFalls (hp : s.powered = true) (hl : s.holdLevel = true) :
    exec .holdFalls s =
      .next { s with holdLevel := false, power := if s.power = .hold then .run else s.power } := by
  refine congrArg Host.Outcome.next ?_
  rw [dropHold, if_pos hl]
  by_cases h : s.power = .hold
  · rw [if_pos ⟨hp, h⟩, if_pos h]
  · rw [if_neg fun h' => h h'.2, if_neg h]

/-- An ERASE whose void write has been verified ends ABANDONED with a store that is not stale (R114). -/
theorem abandonedAs_of_verifiedErase {seq : Byte} {e : ExtentId} {drain : Option SlotId} {w : WriteEnd} {x : Extent}
    (f : WriteFacts) (hx : s.executing = some { seq := seq, request := .erase e drain (some w) })
    (hextent : s.extents[e] = some x) (hv : w.facts.verified = true) :
    abandonedAs f s =
      ended .erase seq .abandoned [item1 0x57 0x00, item1 0x60 0x03]
        { s with extents := s.extents.set e (some { x with storeStale := false }) } := by
  have hphase : w.facts.phase = .verified := by simp [WriteFacts.phase, hv]
  have hitem : staleItem e { s with extents := s.extents.set e (some { x with storeStale := false }) } =
      item1 0x57 0x00 := by
    simp only [staleItem, Fin.getElem_fin, Vector.getElem_set_self, Option.map_some, Option.getD_some]
    rfl
  simp only [abandonedAs, hx, hphase, hextent, Option.map_some]
  exact congrArg (fun i => ended .erase seq .abandoned [i, item1 0x60 0x03]
    { s with extents := s.extents.set e (some { x with storeStale := false }) }) hitem

end

/-- Settles O53: hold entry abandons the executing request by the state of its transaction, and the locking step
follows where it is due. -/
theorem holdLevelStartsAndEndsHold : Obligations.HoldLevelStartsAndEndsHold := by
  unfold Obligations.HoldLevelStartsAndEndsHold
  refine ⟨fun s hp hl => ?_, fun s => exec_holdFalls⟩
  intro entry
  have hrises : s.power = .run → exec .holdRises s = .next (lockingStepIfDue (abandonRequest entry)) :=
    exec_holdRises_of_run hp hl
  have hunlinked : s.executing.isSome = true → s.link.transaction = none →
      abandonRequest entry = abandonedAs (factsOf s.link.operation) entry := fun hx hw =>
    (abandonRequest_of_unlinked (s := entry) hx hw).trans (requestAbandoned_eq _ _)
  have hwaiting : ∀ w, s.executing.isSome = true → s.link.transaction = some w → s.link.state.holdsLink = false →
      abandonRequest entry = abandonedAs (factsReached w s.link.operation)
        { entry with link := rested .idle s.link.tracking s.link.releaseWatch s.link } := fun w hx hw hh =>
    (abandonRequest_of_waiting (s := entry) hx hw hh).trans (requestAbandoned_eq _ _)
  have hjobLeft : ∀ t : State, t.jobs = s.jobs → (∃ i : TagId, s.jobs[i].isSome = true) →
      lockingStepIfDue t = t := fun t ht hj => lockingStepIfDue_of_job (by rw [ht]; exact hj)
  refine ⟨exec_holdRises_of_other hl, fun hrun he hj => ?_, fun hrun he hj => ?_, fun w hrun hx hw hh => ?_,
    fun w hrun hx hw hh => ?_, fun hrun hx hw => ?_, fun seq e drain w x hrun hw hextent hx hv hj => ?_,
    fun w seq e d slot hrun hw hh hj hx => ?_⟩
  · rw [hrises hrun, abandonRequest_of_idle (s := entry) he, hjobLeft entry rfl hj]
  · rw [hrises hrun, abandonRequest_of_idle (s := entry) he, lockingStepIfDue_of_due (s := entry) rfl hj he]
  · rw [hrises hrun, abandonRequest_of_holding (s := entry) hx hw hh]
    exact congrArg _ (lockingStepIfDue_of_executing hx)
  · rw [hrises hrun, hwaiting w hx hw hh]
  · rw [hrises hrun, hunlinked hx hw]
  · rw [hrises hrun, hunlinked (by rw [hx]; rfl) hw, abandonedAs_of_verifiedErase (s := entry) _ hx hextent hv]
    exact congrArg _ (hjobLeft _ rfl hj)
  · rw [hrises hrun, hwaiting w (by rw [hx]; rfl) hw hh, abandonedAs_of_unlock (s := { entry with link := _ }) _ hx]
    refine congrArg _ (Eq.trans (hjobLeft _ ?_ hj) ?_)
    · rfl
    · cases slot <;> rfl

/-! ## The drain timer (R161) -/

section
variable {s : State}

theorem tableEmpty_of_job (h : ∃ t : TagId, s.jobs[t].isSome = true) : ¬tableEmpty s = true := by
  obtain ⟨t, ht⟩ := h
  intro hempty
  rw [(tableEmpty_iff s).1 hempty t] at ht
  contradiction

theorem expireDrain_of_jobs (hq : s.power = .quiescing) (ht : s.drainTimer.isSome = true)
    (hj : ∃ t : TagId, s.jobs[t].isSome = true) :
    expireDrain s = setFlag .holdCut (cutJobs (fun _ => true) .cutHold { s with drainTimer := none }) := by
  rw [expireDrain, if_pos ⟨hq, ht⟩]
  exact if_neg (tableEmpty_of_job (s := { s with drainTimer := none }) hj)

theorem expireDrain_of_noJobs (hq : s.power = .quiescing) (ht : s.drainTimer.isSome = true)
    (hj : ∀ t : TagId, s.jobs[t] = none) : expireDrain s = { s with drainTimer := none } := by
  rw [expireDrain, if_pos ⟨hq, ht⟩]
  exact if_pos ((tableEmpty_iff { s with drainTimer := none }).2 hj)

theorem expireDrain_of_other (h : ¬(s.power = .quiescing ∧ s.drainTimer.isSome = true)) : expireDrain s = s :=
  if_neg h

end

/-- Settles O56: an expiry in QUIESCING cuts every job left, and whether the locking step is due is then read off the
Job Table. -/
theorem drainExpiryCutsEveryJob : Obligations.DrainExpiryCutsEveryJob := by
  unfold Obligations.DrainExpiryCutsEveryJob
  intro s hp
  have hexec : exec .drainTimerExpiry s = .next (lockingStepIfDue (expireDrain s)) := closingRule_of_powered _ hp
  rw [hexec]
  refine ⟨fun hq ht hj => ?_, fun hq ht hj hx => ?_, fun h => ?_⟩
  · intro u
    have hu : u.power = .quiescing := by
      have hcut := JobFrame.of_cutJobs (fun _ => true) .cutHold { s with drainTimer := none }
      rw [setFlag_power, hcut.power]
      exact hq
    rw [expireDrain_of_jobs hq ht hj]
    show Host.Outcome.next (lockingStepIfDue u) = _
    split_ifs with hdue
    · obtain ⟨hempty, hidle⟩ := hdue
      rw [lockingStepIfDue_of_due hu hempty hidle]
    · rw [lockingStepIfDue_of_notDue fun hd => hdue ((lockingStep_due_iff u).1 hd).2]
  · rw [expireDrain_of_noJobs hq ht hj, lockingStepIfDue_of_executing (s := { s with drainTimer := none }) hx]
  · obtain hq | ⟨ht, hj⟩ := h
    · rw [expireDrain_of_other fun h => hq h.1, lockingStepIfDue_of_power hq]
    · rw [expireDrain_of_other fun h => by simp [ht] at h, lockingStepIfDue_of_job hj]

end Sys2Proof.Machine
end

section
/-! PROOFS. Job messages and key records as bytes (O5). -/

namespace Sys2Proof.Machine

/-! ## Job messages from their bytes (12.1) -/

theorem encodeOpener_length (m : OpenerMsg) : (encodeOpener m).length = 12 := rfl

/-- Every field of an opener is read from the bytes it was written to. -/
theorem decodeOpener_encodeOpener {m : OpenerMsg} (h : m.length = 12) : decodeOpener (encodeOpener m) = m := by
  have hlba : BitVec.ofNat 40 (fieldAt 4 5 (encodeOpener m)) = m.firstLba := ofNat_beNat_beBytes 5 m.firstLba
  have hcount : BitVec.ofNat 16 (fieldAt 9 2 (encodeOpener m)) = m.count := ofNat_beNat_beBytes 2 m.count
  rw [decodeOpener, encodeOpener_length, hlba, hcount, ← h]
  rfl

theorem Closer.bytes_length (c : Closer) : c.bytes.length = 14 := by
  simp [Closer.bytes, beBytes_length]

/-! ## The VOID record (12.3) -/

theorem beBytes_zero (n : Nat) : beBytes n 0 = List.replicate n 0 := by
  induction n with
  | zero => rfl
  | succ n ih => rw [beBytes, Nat.zero_div, ih, List.replicate_succ']; rfl

theorem recordBytes_voidRecord : recordBytes voidRecord = List.replicate 100 0 := by
  have hzero (n : Nat) : beBytes n (0 : BitVec (8 * n)).toNat = List.replicate n 0 := beBytes_zero n
  have hbytes : recordBytes voidRecord =
      List.replicate 4 0 ++ List.replicate 16 0 ++ List.replicate 64 0 ++ List.replicate 16 0 := by
    rw [← hzero 16, ← hzero 64]
    rfl
  rw [hbytes, List.replicate_append_replicate, List.replicate_append_replicate, List.replicate_append_replicate]

/-- Settles O5: each layout puts every field at the offset it is read from. -/
theorem jobMessagesReadBackFromBytes : Obligations.JobMessagesReadBackFromBytes := by
  unfold Obligations.JobMessagesReadBackFromBytes
  refine ⟨fun m h => ⟨encodeOpener_length m, ?_⟩, fun m => rfl, fun c => ⟨c.bytes_length, rfl⟩, recordBytes_length,
    recordBytes_voidRecord⟩
  exact congrArg Instr.jobOpener (decodeOpener_encodeOpener h)

end Sys2Proof.Machine
end

section
/-! PROOFS. The operands of whole requests (O23): every request that 12.2 and R165 make whole is read, and what is read
is what its target and its items spell. -/

namespace Sys2Proof.Machine

/-! ## What the readers answer (12.2) -/

theorem inRange_spells {lo hi v n : Nat} (h : inRange lo hi v = some n) : v = n := by
  unfold inRange at h
  split_ifs at h
  exact Option.some.inj h

theorem inRange_read {lo hi v : Nat} (h : lo ≤ v ∧ v ≤ hi) : ∃ n, inRange lo hi v = some n :=
  ⟨v, if_pos h⟩

theorem index?_read {n v : Nat} (h : v < n) : ∃ i, index? n v = some i :=
  ⟨⟨v, h⟩, dif_pos h⟩

theorem yesNo_spells {v : Nat} {b : Bool} (h : yesNo v = some b) : v = yesNoCode b := by
  unfold yesNo at h
  split_ifs at h <;> cases h <;> assumption

theorem yesNo_read {v : Nat} (h : v ≤ 1) : ∃ b, yesNo v = some b := by
  interval_cases v <;> exact ⟨_, rfl⟩

theorem maskOf_spells {v : Nat} {m : MaskEntry} (h : maskOf v = some m) : v = m.code.toNat := by
  unfold maskOf at h
  split_ifs at h <;> cases h <;> assumption

theorem maskOf_read {v : Nat} (h : 1 ≤ v ∧ v ≤ 2) : ∃ m, maskOf v = some m := by
  obtain ⟨hlow, hhigh⟩ := h
  interval_cases v <;> exact ⟨_, rfl⟩

theorem idleModeOf_spells {v : Nat} {m : IdleMode} (h : idleModeOf v = some m) : v = m.code.toNat := by
  unfold idleModeOf at h
  split_ifs at h <;> cases h <;> assumption

theorem idleModeOf_read {v : Nat} (h : v ≤ 2) : ∃ m, idleModeOf v = some m := by
  interval_cases v <;> exact ⟨_, rfl⟩

theorem idleStepOf_spells {v : Nat} {m : IdleStep} (h : idleStepOf v = some m) : v = m.code.toNat := by
  unfold idleStepOf at h
  split_ifs at h <;> cases h <;> assumption

theorem idleStepOf_read {v : Nat} (h : 1 ≤ v ∧ v ≤ 2) : ∃ m, idleStepOf v = some m := by
  obtain ⟨hlow, hhigh⟩ := h
  interval_cases v <;> exact ⟨_, rfl⟩

theorem sectorSizeOf_spells {v : Nat} {z : SectorSize} (h : sectorSizeOf v = some z) : v = z.code.toNat := by
  unfold sectorSizeOf at h
  split_ifs at h <;> cases h <;> assumption

theorem sectorSizeOf_read {v : Nat} (h : v ≤ 1) : ∃ z, sectorSizeOf v = some z := by
  interval_cases v <;> exact ⟨_, rfl⟩

theorem keySizeOf_spells {v : Nat} {z : KeySize} (h : keySizeOf v = some z) : v = z.code.toNat := by
  unfold keySizeOf at h
  split_ifs at h <;> cases h <;> assumption

theorem keySizeOf_read {v : Nat} (h : 1 ≤ v ∧ v ≤ 2) : ∃ z, keySizeOf v = some z := by
  obtain ⟨hlow, hhigh⟩ := h
  interval_cases v <;> exact ⟨_, rfl⟩

theorem slotModeOf_spells {v : Nat} {m : SlotMode} (h : slotModeOf v = some m) : v = m.code.toNat := by
  unfold slotModeOf at h
  split_ifs at h <;> cases h <;> assumption

theorem slotModeOf_read {v : Nat} (h : 1 ≤ v ∧ v ≤ 2) : ∃ m, slotModeOf v = some m := by
  obtain ⟨hlow, hhigh⟩ := h
  interval_cases v <;> exact ⟨_, rfl⟩

theorem directionsOf_spells {v : Nat} {d : Directions} (h : directionsOf v = some d) : v = directionsCode d := by
  unfold directionsOf at h
  split_ifs at h <;> cases h <;> assumption

theorem directionsOf_read {v : Nat} (h : 1 ≤ v ∧ v ≤ 3) : ∃ d, directionsOf v = some d := by
  obtain ⟨hlow, hhigh⟩ := h
  interval_cases v <;> exact ⟨_, rfl⟩

theorem cutModeOf_spells {v : Nat} {b : Bool} (h : cutModeOf v = some b) : v = if b then 2 else 1 := by
  unfold cutModeOf at h
  split_ifs at h <;> cases h <;> assumption

theorem cutModeOf_read {v : Nat} (h : 1 ≤ v ∧ v ≤ 2) : ∃ b, cutModeOf v = some b := by
  obtain ⟨hlow, hhigh⟩ := h
  interval_cases v <;> exact ⟨_, rfl⟩

theorem rateOf_spells {v : Nat} {x : LinkRate} (h : rateOf v = some x) : v = x.code.toNat := by
  unfold rateOf at h
  split_ifs at h <;> cases h <;> assumption

theorem rateOf_read {v : Nat} (h : 1 ≤ v ∧ v ≤ 2) : ∃ x, rateOf v = some x := by
  obtain ⟨hlow, hhigh⟩ := h
  interval_cases v <;> exact ⟨_, rfl⟩

theorem tickPeriodOf_spells {v : Nat} {p : TickPeriod} (h : tickPeriodOf v = some p) : v = p.code.toNat := by
  unfold tickPeriodOf at h
  split_ifs at h <;> cases h <;> assumption

theorem tickPeriodOf_read {v : Nat} (h : 1 ≤ v ∧ v ≤ 8) : ∃ p, tickPeriodOf v = some p := by
  obtain ⟨hlow, hhigh⟩ := h
  interval_cases v <;> exact ⟨_, rfl⟩

/-- The device address is the number its byte spells (R136). -/
theorem deviceAddress_spells {v : Nat} {b : Byte} (h : (inRange 0 0x7F v).map (BitVec.ofNat 8) = some b) :
    v = b.toNat := by
  obtain ⟨n, hn, rfl⟩ := Option.map_eq_some_iff.1 h
  obtain ⟨-, hhigh⟩ := inRange_range hn
  rw [← inRange_spells hn, BitVec.toNat_ofNat, Nat.mod_eq_of_lt (by omega)]

theorem deviceAddress_read {v : Nat} (h : v ≤ 0x7F) : ∃ b, (inRange 0 0x7F v).map (BitVec.ofNat 8) = some b := by
  obtain ⟨n, hn⟩ := inRange_read ⟨Nat.zero_le v, h⟩
  exact ⟨_, Option.map_eq_some_iff.2 ⟨n, hn, rfl⟩⟩

/-- A field as wide as its item keeps every bit of it. -/
theorem ofNat_spells {bits len : Nat} {v : Bytes} {a : BitVec bits} (hlen : v.length = len)
    (hwide : 256 ^ len = 2 ^ bits) (h : some (BitVec.ofNat bits (beNat v)) = some a) : beNat v = a.toNat := by
  have hlt : beNat v < 2 ^ bits := by
    rw [← hwide, ← hlen]
    exact beNat_lt v
  cases h
  rw [BitVec.toNat_ofNat, Nat.mod_eq_of_lt hlt]

/-! ## Lists of flags (12.2, 12.5) -/

theorem flagOf_read {b : Byte} (h : 1 ≤ b.toNat ∧ b.toNat ≤ 13) : ∃ f, flagOf b = some f := by
  obtain ⟨hlow, hhigh⟩ := h
  unfold flagOf
  interval_cases b.toNat <;> exact ⟨_, rfl⟩

theorem flagsOf_spells {bs : Bytes} {fs : List Flag} (h : flagsOf bs = some fs) :
    bs.map BitVec.toNat = fs.map fun f => f.idx.val + 1 := by
  induction bs generalizing fs with
  | nil =>
    cases h
    rfl
  | cons b bs ih =>
    unfold flagsOf at h
    split at h
    · next f fs' hf hfs =>
      cases h
      rw [List.map_cons, List.map_cons, flagOf_eq_some hf, ih hfs]
    · contradiction

theorem flagsOf_read {bs : Bytes} (h : ∀ b ∈ bs, 1 ≤ b.toNat ∧ b.toNat ≤ 13) : ∃ fs, flagsOf bs = some fs := by
  induction bs with
  | nil => exact ⟨[], rfl⟩
  | cons b bs ih =>
    obtain ⟨hb, hbs⟩ := List.forall_mem_cons.1 h
    obtain ⟨f, hf⟩ := flagOf_read hb
    obtain ⟨fs, hfs⟩ := ih hbs
    exact ⟨f :: fs, by simp only [flagsOf, hf, hfs]⟩

theorem enablesOf_spells {bs : Bytes} {es : List (Flag × Bool)} (h : enablesOf bs = some es) :
    bs.map BitVec.toNat = es.flatMap fun p => [p.1.idx.val + 1, yesNoCode p.2] := by
  match bs, h with
  | [], h =>
    cases h
    rfl
  | [_], h => contradiction
  | b :: v :: rest, h =>
    unfold enablesOf at h
    split at h
    · next f e more hf he hmore =>
      cases h
      rw [List.map_cons, List.map_cons, flagOf_eq_some hf, yesNo_spells he, enablesOf_spells hmore]
      rfl
    · contradiction

/-- Whole pairs of a flag code and an enable are read. -/
theorem enablesOf_read {bs : Bytes} (heven : bs.length % 2 = 0)
    (h : ∀ i : Nat, 2 * i + 1 < bs.length → (1 ≤ (bs.getD (2 * i) 0).toNat ∧ (bs.getD (2 * i) 0).toNat ≤ 13) ∧
      (bs.getD (2 * i + 1) 0).toNat ≤ 1) : ∃ es, enablesOf bs = some es := by
  match bs with
  | [] => exact ⟨[], rfl⟩
  | [_] => contradiction
  | b :: v :: rest =>
    have hlength : (b :: v :: rest).length = rest.length + 2 := rfl
    obtain ⟨hb, hv⟩ : (1 ≤ b.toNat ∧ b.toNat ≤ 13) ∧ v.toNat ≤ 1 := h 0 (by omega)
    obtain ⟨f, hf⟩ := flagOf_read hb
    obtain ⟨e, he⟩ := yesNo_read hv
    obtain ⟨es, hes⟩ := enablesOf_read (bs := rest) (by omega) fun i hi => h (i + 1) (by omega)
    exact ⟨(f, e) :: es, by simp only [enablesOf, hf, he, hes]⟩

/-- Flag codes that differ are different flags. -/
theorem enablesOf_nodup {bs : Bytes} {es : List (Flag × Bool)} (h : enablesOf bs = some es)
    (hbytes : ∀ i j : Nat, i < j → 2 * j + 1 < bs.length → bs.getD (2 * i) 0 ≠ bs.getD (2 * j) 0) :
    (es.map Prod.fst).Nodup := by
  have hlength : bs.length = 2 * es.length := by
    have := congrArg List.length (enablesOf_spells h)
    simp only [List.length_map, List.length_flatMap, List.length_cons, List.length_nil, List.map_const',
      List.sum_replicate, smul_eq_mul] at this
    omega
  rw [List.nodup_iff_getElem?_ne_getElem?]
  intro i j hij hj hsame
  rw [List.length_map] at hj
  obtain ⟨p, hp, hflagp, -⟩ := enablesOf_pair h (i := i) (by omega)
  obtain ⟨q, hq, hflagq, -⟩ := enablesOf_pair h (i := j) (by omega)
  have hpq : p.1 = q.1 := by simpa only [List.getElem?_map, hp, hq, Option.map_some, Option.some.injEq] using hsame
  refine hbytes i j hij (by omega) (BitVec.eq_of_toNat_eq ?_)
  rw [flagOf_eq_some hflagp, flagOf_eq_some hflagq, hpq]

/-! ## Items by their codes -/

section

variable {r : Request} {n : RequestName} {c : Nat}

theorem valueOf_eq_some {v : Bytes} (h : valueOf r c = some v) : ∃ i ∈ r.items, i.code.toNat = c ∧ i.value = v := by
  obtain ⟨i, hfound, hvalue⟩ := Option.map_eq_some_iff.1 h
  exact ⟨i, List.mem_of_find?_eq_some hfound, by simpa using List.find?_some hfound, hvalue⟩

theorem valueOf_eq_none (h : valueOf r c = none) : ∀ i ∈ r.items, i.code.toNat ≠ c := by
  simpa [valueOf] using h

/-- An item of a well spelled request has the size of its code and is in its range. -/
theorem WellSpelled.fits (h : WellSpelled n r) {v : Bytes} (hv : valueOf r c = some v) :
    sizeOfItem c v.length ∧ itemInRange c v := by
  obtain ⟨hknown, -, -, hsize⟩ := itemsOk_holds h.items
  obtain ⟨i, hi, rfl, rfl⟩ := valueOf_eq_some hv
  exact ⟨hsize i hi, h.ranges _ (hknown i hi) _ hv⟩

/-- A required item is there (12.2). -/
theorem WellSpelled.value (h : WellSpelled n r) (hc : c ∈ requiredItems n) : ∃ v, valueOf r c = some v := by
  obtain ⟨-, honce, hthere, -⟩ := itemsOk_holds h.items
  obtain ⟨i, hi, rfl⟩ := hthere c hc
  exact ⟨i.value, valueOf_of_mem honce hi⟩

/-! ## Whole requests are well spelled (R165) -/

theorem ascending_of_pairwise {cs : List Nat} (h : cs.Pairwise (· < ·)) : ascending cs = true := by
  induction cs with
  | nil => rfl
  | cons a cs ih =>
    cases cs with
    | nil => rfl
    | cons b cs =>
      obtain ⟨ha, hcs⟩ := List.pairwise_cons.1 h
      simp only [ascending, ih hcs, ha b List.mem_cons_self, decide_true, Bool.and_self]

theorem wellSpelled_of_whole (h : whole n r) : WellSpelled n r := by
  obtain ⟨hwell, hascending, -⟩ := h
  simp only [malformed, not_or, not_exists, not_and, not_not, not_forall, not_le] at hwell
  obtain ⟨htarget, hknown, -, hthere, hsize, hrange, hnonempty⟩ := hwell
  refine ⟨?_, htarget, fun c _ v hv => ?_, fun hn hnone => ?_⟩
  · have honce : (itemCodes r).Nodup := hascending.imp fun hlt => Nat.ne_of_lt hlt
    simp only [itemsOk, Bool.and_eq_true, Bool.or_eq_true, List.all_eq_true, List.contains_iff_mem, itemSizeOk_iff,
      decide_eq_true_eq]
    refine ⟨⟨⟨⟨?_, honce⟩, fun c hc => ?_⟩, hsize⟩, .inl (ascending_of_pairwise hascending)⟩
    · simpa only [itemCodes, List.forall_mem_map] using hknown
    · obtain ⟨i, hi, hcode⟩ := hthere c hc
      exact List.mem_map.2 ⟨i, hi, hcode⟩
  · obtain ⟨i, hi, rfl, rfl⟩ := valueOf_eq_some hv
    exact hrange i hi
  · obtain ⟨h1, h2, h3⟩ := hnonempty hnone
    exact hn.elim h1 (Or.rec h2 h3)

/-- A whole request that uses no target carries 0xFF there (log 17). -/
theorem noTarget_of_whole (h : whole n r) (hn : targetBound n = none) : noTarget r = true := by
  obtain ⟨-, -, htarget⟩ := h
  exact beq_iff_eq.2 (htarget hn)

/-! ## Fields that are read, and what they spell -/

/-- A required field is read where its reader takes every value of its item. -/
theorem WellSpelled.need_read {α : Type} {f : Nat → Option α} (h : WellSpelled n r) (hc : c ∈ requiredItems n)
    (hf : ∀ v : Bytes, sizeOfItem c v.length → itemInRange c v → ∃ a, f (beNat v) = some a) :
    ∃ a, need r c f = some a := by
  obtain ⟨v, hv⟩ := h.value hc
  obtain ⟨hsize, hrange⟩ := h.fits hv
  obtain ⟨a, ha⟩ := hf v hsize hrange
  exact ⟨a, by rw [need, hv, Option.bind_some, ha]⟩

/-- An optional field is read, from its item or from none. -/
theorem WellSpelled.carried_read {α : Type} {f : Nat → Option α} (h : WellSpelled n r)
    (hf : ∀ v : Bytes, sizeOfItem c v.length → itemInRange c v → ∃ a, f (beNat v) = some a) :
    ∃ a, carried r c f = some a := by
  rcases hv : valueOf r c with _ | v
  · exact ⟨none, by simp only [carried, hv]⟩
  · obtain ⟨hsize, hrange⟩ := h.fits hv
    obtain ⟨a, ha⟩ := hf v hsize hrange
    exact ⟨some a, by simp only [carried, hv, ha, Option.map_some]⟩

theorem WellSpelled.index_read {b : Nat} (h : WellSpelled n r) (hb : targetBound n = some b) :
    ∃ i, index? b r.target.toNat = some i :=
  index?_read (h.target b hb)

/-- A required field is what its item spells. -/
theorem WellSpelled.carries_of_need {α : Type} {f : Nat → Option α} {a : α} {m : Nat} (h : WellSpelled n r)
    (hread : need r c f = some a)
    (hf : ∀ v : Bytes, sizeOfItem c v.length → f (beNat v) = some a → beNat v = m) : carries r c m := by
  obtain ⟨v, hv, ha⟩ := Option.bind_eq_some_iff.1 hread
  obtain ⟨hsize, -⟩ := h.fits hv
  obtain ⟨i, hi, hcode, rfl⟩ := valueOf_eq_some hv
  exact ⟨i, hi, hcode, hf _ hsize ha⟩

/-- An optional field is what its item spells, and absent where no item has its code. -/
theorem WellSpelled.mayCarry_of_carried {α : Type} {f : Nat → Option α} {o : Option α} {code : α → Nat}
    (h : WellSpelled n r) (hread : carried r c f = some o)
    (hf : ∀ (v : Bytes) (a : α), sizeOfItem c v.length → f (beNat v) = some a → beNat v = code a) :
    mayCarry r c (o.map code) := by
  unfold carried at hread
  split at hread
  · next hv =>
    cases hread
    exact valueOf_eq_none hv
  · next v hv =>
    obtain ⟨a, ha, rfl⟩ := Option.map_eq_some_iff.1 hread
    obtain ⟨hsize, -⟩ := h.fits hv
    obtain ⟨i, hi, hcode, rfl⟩ := valueOf_eq_some hv
    exact ⟨i, hi, hcode, hf _ a hsize ha⟩

/-- An optional field that is a number. -/
theorem WellSpelled.mayCarry_of_inRange {lo hi : Nat} {o : Option Nat} (h : WellSpelled n r)
    (hread : carried r c (inRange lo hi) = some o) : mayCarry r c o := by
  simpa only [Option.map_id'] using h.mayCarry_of_carried (code := fun m => m) hread fun _ _ _ => inRange_spells

end

/-! ## Every whole request is read -/

section

variable {r : Request}

theorem bare_of_whole {n : RequestName} (h : whole n r) (hn : targetBound n = none)
    (hitems : itemsOk [] [] r = true) : bare r = true := by
  rw [bare, noTarget_of_whole h hn, hitems]
  rfl

theorem namespaceArgs?_of_whole (h : whole .setNamespace r) : (namespaceArgs? r).isSome = true := by
  have hw := wellSpelled_of_whole h
  have hitems : itemsOk [0x02, 0x03, 0x04] [] r = true := hw.items
  obtain ⟨ns, hns⟩ := hw.index_read rfl
  obtain ⟨size, hsize⟩ := hw.need_read (c := 0x02) (f := inRange 0 (2 ^ 40)) (by decide)
    fun v _ hv => inRange_read ⟨Nat.zero_le _, hv⟩
  obtain ⟨sector, hsector⟩ := hw.need_read (c := 0x03) (by decide) fun _ _ => sectorSizeOf_read
  obtain ⟨handle, hhandle⟩ := hw.need_read (c := 0x04) (f := index? 64) (by decide)
    fun _ _ hv => index?_read (Nat.lt_succ_of_le hv)
  simp [-Nat.reducePow, namespaceArgs?, hitems, hns, hsize, hsector, hhandle]

theorem extentOnly?_of_wellSpelled {n : RequestName} (h : WellSpelled n r) (hn : targetBound n = some 24)
    (hitems : itemsOk [] [] r = true) : (extentOnly? r).isSome = true := by
  obtain ⟨e, he⟩ := h.index_read hn
  simp [extentOnly?, hitems, he]

theorem slotOnly?_of_whole (h : whole .querySlot r) : (slotOnly? r).isSome = true := by
  have hw := wellSpelled_of_whole h
  have hitems : itemsOk [] [] r = true := hw.items
  obtain ⟨k, hk⟩ := hw.index_read rfl
  simp [slotOnly?, hitems, hk]

/-- The policy fields that a well spelled request carries are read (R48). -/
theorem policyUpdate?_of_wellSpelled {n : RequestName} (h : WellSpelled n r) : ∃ u, policyUpdate? r = some u := by
  obtain ⟨_, h10⟩ := h.carried_read (c := 0x10) (f := inRange 1 15) fun _ _ => inRange_read
  obtain ⟨_, h11⟩ := h.carried_read (c := 0x11) fun _ _ => maskOf_read
  obtain ⟨_, h12⟩ := h.carried_read (c := 0x12) fun _ _ => maskOf_read
  obtain ⟨_, h13⟩ := h.carried_read (c := 0x13) fun _ _ => maskOf_read
  obtain ⟨_, h14⟩ := h.carried_read (c := 0x14) fun _ _ => maskOf_read
  obtain ⟨_, h15⟩ := h.carried_read (c := 0x15) (f := fun v => some (BitVec.ofNat 8 v)) fun _ _ _ => ⟨_, rfl⟩
  obtain ⟨_, h16⟩ := h.carried_read (c := 0x16) fun _ _ => yesNo_read
  obtain ⟨_, h17⟩ := h.carried_read (c := 0x17) fun _ _ => yesNo_read
  obtain ⟨_, h18⟩ := h.carried_read (c := 0x18) fun _ _ => idleModeOf_read
  obtain ⟨_, h19⟩ := h.carried_read (c := 0x19) (f := inRange 1 4095) fun _ _ => inRange_read
  obtain ⟨_, h1A⟩ := h.carried_read (c := 0x1A) fun _ _ => idleStepOf_read
  obtain ⟨_, h1B⟩ := h.carried_read (c := 0x1B) fun _ _ => yesNo_read
  obtain ⟨_, h1C⟩ := h.carried_read (c := 0x1C) (f := inRange 0 maxUsage) fun v hsize _ =>
    inRange_read ⟨Nat.zero_le _, Nat.le_sub_one_of_lt (by
      have hlen : v.length = 6 := hsize
      have := beNat_lt v
      rwa [hlen] at this)⟩
  obtain ⟨_, h1D⟩ := h.carried_read (c := 0x1D) fun _ _ => yesNo_read
  simp [policyUpdate?, h10, h11, h12, h13, h14, h15, h16, h17, h18, h19, h1A, h1B, h1C, h1D]

theorem defineArgs?_of_whole (h : whole .defineExtent r) : (defineArgs? r).isSome = true := by
  have hw := wellSpelled_of_whole h
  have hitems : itemsOk [0x01, 0x04, 0x05, 0x06] policyCodes r = true := hw.items
  obtain ⟨extent, hextent⟩ := hw.index_read rfl
  obtain ⟨ns, hns⟩ := hw.need_read (c := 0x01) (f := index? 4) (by decide)
    fun _ _ hv => index?_read (Nat.lt_succ_of_le hv)
  obtain ⟨first, hfirst⟩ := hw.need_read (c := 0x05) (f := some) (by decide) fun _ _ _ => ⟨_, rfl⟩
  obtain ⟨last, hlast⟩ := hw.need_read (c := 0x06) (f := some) (by decide) fun _ _ _ => ⟨_, rfl⟩
  obtain ⟨handle, hhandle⟩ := hw.need_read (c := 0x04) (f := index? 64) (by decide)
    fun _ _ hv => index?_read (Nat.lt_succ_of_le hv)
  obtain ⟨u, hu⟩ := policyUpdate?_of_wellSpelled hw
  simp [defineArgs?, hitems, hextent, hns, hfirst, hlast, hhandle, hu]

theorem policyArgs?_of_whole (h : whole .setPolicy r) : (policyArgs? r).isSome = true := by
  have hw := wellSpelled_of_whole h
  have hitems : itemsOk [] policyCodes r = true := hw.items
  have hsome : r.items ≠ [] := hw.nonempty (by simp)
  obtain ⟨extent, hextent⟩ := hw.index_read rfl
  obtain ⟨u, hu⟩ := policyUpdate?_of_wellSpelled hw
  simp [policyArgs?, hitems, hsome, hextent, hu]

theorem unlockArgs?_of_whole (h : whole .unlock r) : (unlockArgs? r).isSome = true := by
  have hw := wellSpelled_of_whole h
  have hitems : itemsOk [0x20, 0x23] [] r = true := hw.items
  obtain ⟨extent, hextent⟩ := hw.index_read rfl
  obtain ⟨credential, hcredential⟩ := hw.need_read (c := 0x20) (f := fun v => some (BitVec.ofNat 256 v))
    (by decide) fun _ _ _ => ⟨_, rfl⟩
  obtain ⟨dirs, hdirs⟩ := hw.need_read (c := 0x23) (by decide) fun _ _ => directionsOf_read
  simp [unlockArgs?, hitems, hextent, hcredential, hdirs]

theorem lockArgs?_of_whole (h : whole .lock r) : (lockArgs? r).isSome = true := by
  have hw := wellSpelled_of_whole h
  have hitems : itemsOk [0x23, 0x24, 0x25] [] r = true := hw.items
  obtain ⟨extent, hextent⟩ := hw.index_read rfl
  obtain ⟨dirs, hdirs⟩ := hw.need_read (c := 0x23) (by decide) fun _ _ => directionsOf_read
  obtain ⟨forget, hforget⟩ := hw.need_read (c := 0x24) (by decide) fun _ _ => yesNo_read
  obtain ⟨cut, hcut⟩ := hw.need_read (c := 0x25) (by decide) fun _ _ => cutModeOf_read
  simp [lockArgs?, hitems, hextent, hdirs, hforget, hcut]

theorem rewrapArgs?_of_whole (h : whole .rewrap r) : (rewrapArgs? r).isSome = true := by
  have hw := wellSpelled_of_whole h
  have hitems : itemsOk [0x21, 0x22] [] r = true := hw.items
  obtain ⟨extent, hextent⟩ := hw.index_read rfl
  obtain ⟨old, hold⟩ := hw.need_read (c := 0x21) (f := fun v => some (BitVec.ofNat 256 v)) (by decide)
    fun _ _ _ => ⟨_, rfl⟩
  obtain ⟨new, hnew⟩ := hw.need_read (c := 0x22) (f := fun v => some (BitVec.ofNat 256 v)) (by decide)
    fun _ _ _ => ⟨_, rfl⟩
  simp [rewrapArgs?, hitems, hextent, hold, hnew]

theorem eraseArgs?_of_whole (h : whole .erase r) : (eraseArgs? r).isSome = true := by
  have hw := wellSpelled_of_whole h
  have hitems : itemsOk [0x25] [] r = true := hw.items
  obtain ⟨extent, hextent⟩ := hw.index_read rfl
  obtain ⟨cut, hcut⟩ := hw.need_read (c := 0x25) (by decide) fun _ _ => cutModeOf_read
  simp [eraseArgs?, hitems, hextent, hcut]

theorem generateArgs?_of_whole (h : whole .generate r) : (generateArgs? r).isSome = true := by
  have hw := wellSpelled_of_whole h
  have hitems : itemsOk [0x20, 0x23, 0x26, 0x27] [] r = true := hw.items
  obtain ⟨extent, hextent⟩ := hw.index_read rfl
  obtain ⟨credential, hcredential⟩ := hw.need_read (c := 0x20) (f := fun v => some (BitVec.ofNat 256 v))
    (by decide) fun _ _ _ => ⟨_, rfl⟩
  obtain ⟨dirs, hdirs⟩ := hw.need_read (c := 0x23) (by decide) fun _ _ => directionsOf_read
  obtain ⟨size, hsize⟩ := hw.need_read (c := 0x26) (by decide) fun _ _ => keySizeOf_read
  obtain ⟨mode, hmode⟩ := hw.need_read (c := 0x27) (by decide) fun _ _ => slotModeOf_read
  simp [generateArgs?, hitems, hextent, hcredential, hdirs, hsize, hmode]

theorem linkArgs?_of_whole (h : whole .setLink r) : (linkArgs? r).isSome = true := by
  have hw := wellSpelled_of_whole h
  have hitems : itemsOk [] [0x30, 0x31, 0x32, 0x33, 0x34] r = true := hw.items
  have hsome : r.items ≠ [] := hw.nonempty (by simp)
  obtain ⟨rate, hrate⟩ := hw.carried_read (c := 0x30) fun _ _ => rateOf_read
  obtain ⟨address, haddress⟩ := hw.carried_read (c := 0x31)
    (f := fun v => (inRange 0 0x7F v).map (BitVec.ofNat 8)) fun _ _ => deviceAddress_read
  obtain ⟨stretch, hstretch⟩ := hw.carried_read (c := 0x32) (f := inRange 1 64) fun _ _ => inRange_read
  obtain ⟨wait, hwait⟩ := hw.carried_read (c := 0x33) (f := inRange 10 250) fun _ _ => inRange_read
  obtain ⟨stall, hstall⟩ := hw.carried_read (c := 0x34) fun _ _ => yesNo_read
  simp [linkArgs?, noTarget_of_whole h rfl, hitems, hsome, hrate, haddress, hstretch, hwait, hstall]

theorem tickArgs?_of_whole (h : whole .setTick r) : (tickArgs? r).isSome = true := by
  have hw := wellSpelled_of_whole h
  have hitems : itemsOk [] [0x38, 0x39] r = true := hw.items
  have hsome : r.items ≠ [] := hw.nonempty (by simp)
  obtain ⟨period, hperiod⟩ := hw.carried_read (c := 0x38) fun _ _ => tickPeriodOf_read
  obtain ⟨limit, hlimit⟩ := hw.carried_read (c := 0x39) (f := inRange 1 255) fun _ _ => inRange_read
  simp [tickArgs?, noTarget_of_whole h rfl, hitems, hsome, hperiod, hlimit]

theorem clearArgs?_of_whole (h : whole .clearEvents r) : (clearArgs? r).isSome = true := by
  have hw := wellSpelled_of_whole h
  have hitems : itemsOk [0x40] [] r = true := hw.items
  obtain ⟨bs, hbs⟩ := hw.value (c := 0x40) (by decide)
  obtain ⟨-, hrange⟩ := hw.fits hbs
  obtain ⟨fs, hfs⟩ := flagsOf_read hrange
  simp [clearArgs?, noTarget_of_whole h rfl, hitems, hbs, hfs]

theorem enableArgs?_of_whole (h : whole .setEventEnables r) : (enableArgs? r).isSome = true := by
  have hw := wellSpelled_of_whole h
  have hitems : itemsOk [0x41] [] r = true := hw.items
  obtain ⟨bs, hbs⟩ := hw.value (c := 0x41) (by decide)
  obtain ⟨⟨-, -, heven⟩, hpairs, honce⟩ := hw.fits hbs
  obtain ⟨es, hes⟩ := enablesOf_read heven fun i hi => and_assoc.2 (hpairs i hi)
  simp [enableArgs?, noTarget_of_whole h rfl, hitems, hbs, hes, enablesOf_nodup hes honce]

/-! ## What the operands that are read spell -/

theorem namespaceArgs?_spells {a : NamespaceArgs} (h : namespaceArgs? r = some a) :
    r.target.toNat = a.ns.val ∧ carries r 0x02 a.size ∧ carries r 0x03 a.sectorSize.code.toNat ∧
      carries r 0x04 a.handle.val := by
  have hw := wellSpelled_setNamespace h
  simp only [namespaceArgs?, Option.bind_eq_bind, Option.bind_eq_some_iff, Option.pure_def, Option.some.injEq] at h
  obtain ⟨-, -, ns, hns, size, hsize, sector, hsector, handle, hhandle, rfl⟩ := h
  exact ⟨index?_eq_some.1 hns, hw.carries_of_need hsize fun _ _ => inRange_spells,
    hw.carries_of_need hsector fun _ _ => sectorSizeOf_spells, hw.carries_of_need hhandle fun _ _ => index?_eq_some.1⟩

theorem policyUpdate?_spells {n : RequestName} {u : PolicyUpdate} (hw : WellSpelled n r)
    (h : policyUpdate? r = some u) : carriesPolicy r u := by
  unfold policyUpdate? at h
  obtain ⟨_, h10, h⟩ := Option.bind_eq_some_iff.1 h
  obtain ⟨_, h11, h⟩ := Option.bind_eq_some_iff.1 h
  obtain ⟨_, h12, h⟩ := Option.bind_eq_some_iff.1 h
  obtain ⟨_, h13, h⟩ := Option.bind_eq_some_iff.1 h
  obtain ⟨_, h14, h⟩ := Option.bind_eq_some_iff.1 h
  obtain ⟨_, h15, h⟩ := Option.bind_eq_some_iff.1 h
  obtain ⟨_, h16, h⟩ := Option.bind_eq_some_iff.1 h
  obtain ⟨_, h17, h⟩ := Option.bind_eq_some_iff.1 h
  obtain ⟨_, h18, h⟩ := Option.bind_eq_some_iff.1 h
  obtain ⟨_, h19, h⟩ := Option.bind_eq_some_iff.1 h
  obtain ⟨_, h1A, h⟩ := Option.bind_eq_some_iff.1 h
  obtain ⟨_, h1B, h⟩ := Option.bind_eq_some_iff.1 h
  obtain ⟨_, h1C, h⟩ := Option.bind_eq_some_iff.1 h
  obtain ⟨_, h1D, h⟩ := Option.bind_eq_some_iff.1 h
  cases h
  exact ⟨hw.mayCarry_of_inRange h10, hw.mayCarry_of_carried h11 fun _ _ _ => maskOf_spells,
    hw.mayCarry_of_carried h12 fun _ _ _ => maskOf_spells, hw.mayCarry_of_carried h13 fun _ _ _ => maskOf_spells,
    hw.mayCarry_of_carried h14 fun _ _ _ => maskOf_spells,
    hw.mayCarry_of_carried h15 fun _ _ hsize => ofNat_spells hsize (by rfl),
    hw.mayCarry_of_carried h16 fun _ _ _ => yesNo_spells, hw.mayCarry_of_carried h17 fun _ _ _ => yesNo_spells,
    hw.mayCarry_of_carried h18 fun _ _ _ => idleModeOf_spells, hw.mayCarry_of_inRange h19,
    hw.mayCarry_of_carried h1A fun _ _ _ => idleStepOf_spells, hw.mayCarry_of_carried h1B fun _ _ _ => yesNo_spells,
    hw.mayCarry_of_inRange h1C, hw.mayCarry_of_carried h1D fun _ _ _ => yesNo_spells⟩

theorem defineArgs?_spells {a : DefineArgs} (h : defineArgs? r = some a) :
    r.target.toNat = a.extent.val ∧ carries r 0x01 a.ns.val ∧ carries r 0x04 a.handle.val ∧
      carries r 0x05 a.first ∧ carries r 0x06 a.last ∧ carriesPolicy r a.policy := by
  have hw := wellSpelled_defineExtent h
  have hpolicy := policyUpdate?_spells hw (defineArgs?_policy h)
  simp only [defineArgs?, Option.bind_eq_bind, Option.bind_eq_some_iff, Option.pure_def, Option.some.injEq] at h
  obtain ⟨-, -, extent, hextent, ns, hns, first, hfirst, last, hlast, handle, hhandle, u, -, rfl⟩ := h
  exact ⟨index?_eq_some.1 hextent, hw.carries_of_need hns fun _ _ => index?_eq_some.1,
    hw.carries_of_need hhandle fun _ _ => index?_eq_some.1, hw.carries_of_need hfirst fun _ _ => Option.some.inj,
    hw.carries_of_need hlast fun _ _ => Option.some.inj, hpolicy⟩

/-- A request that may carry no item carries none. -/
theorem items_eq_nil (h : itemsOk [] [] r = true) : r.items = [] := by
  obtain ⟨hknown, -⟩ := itemsOk_holds h
  exact List.eq_nil_iff_forall_not_mem.2 fun i hi => by simpa using hknown i hi

theorem extentOnly?_spells {e : ExtentId} (h : extentOnly? r = some e) : r.target.toNat = e.val ∧ r.items = [] := by
  have hw := wellSpelled_retireExtent h
  simp only [extentOnly?, Option.bind_eq_bind, Option.bind_eq_some_iff] at h
  obtain ⟨-, -, hextent⟩ := h
  exact ⟨index?_eq_some.1 hextent, items_eq_nil hw.items⟩

theorem slotOnly?_spells {k : SlotId} (h : slotOnly? r = some k) : r.target.toNat = k.val ∧ r.items = [] := by
  have hw := wellSpelled_querySlot h
  simp only [slotOnly?, Option.bind_eq_bind, Option.bind_eq_some_iff] at h
  obtain ⟨-, -, hslot⟩ := h
  exact ⟨index?_eq_some.1 hslot, items_eq_nil hw.items⟩

theorem policyArgs?_spells {a : PolicyArgs} (h : policyArgs? r = some a) :
    r.target.toNat = a.extent.val ∧ carriesPolicy r a.policy := by
  have hpolicy := policyUpdate?_spells (wellSpelled_setPolicy h) (policyArgs?_policy h)
  simp only [policyArgs?, Option.bind_eq_bind, Option.bind_eq_some_iff, Option.pure_def, Option.some.injEq] at h
  obtain ⟨-, -, extent, hextent, u, -, rfl⟩ := h
  exact ⟨index?_eq_some.1 hextent, hpolicy⟩

theorem unlockArgs?_spells {a : UnlockArgs} (h : unlockArgs? r = some a) :
    r.target.toNat = a.extent.val ∧ carries r 0x20 a.credential.toNat ∧ carries r 0x23 (directionsCode a.dirs) := by
  have hw := wellSpelled_unlock h
  simp only [unlockArgs?, Option.bind_eq_bind, Option.bind_eq_some_iff, Option.pure_def, Option.some.injEq] at h
  obtain ⟨-, -, extent, hextent, credential, hcredential, dirs, hdirs, rfl⟩ := h
  exact ⟨index?_eq_some.1 hextent, hw.carries_of_need hcredential fun _ hsize => ofNat_spells hsize (by rfl),
    hw.carries_of_need hdirs fun _ _ => directionsOf_spells⟩

theorem lockArgs?_spells {a : LockArgs} (h : lockArgs? r = some a) :
    r.target.toNat = a.extent.val ∧ carries r 0x23 (directionsCode a.dirs) ∧ carries r 0x24 (yesNoCode a.forget) ∧
      carries r 0x25 (if a.cut then 2 else 1) := by
  have hw := wellSpelled_lock h
  simp only [lockArgs?, Option.bind_eq_bind, Option.bind_eq_some_iff, Option.pure_def, Option.some.injEq] at h
  obtain ⟨-, -, extent, hextent, dirs, hdirs, forget, hforget, cut, hcut, rfl⟩ := h
  exact ⟨index?_eq_some.1 hextent, hw.carries_of_need hdirs fun _ _ => directionsOf_spells,
    hw.carries_of_need hforget fun _ _ => yesNo_spells, hw.carries_of_need hcut fun _ _ => cutModeOf_spells⟩

theorem rewrapArgs?_spells {a : RewrapArgs} (h : rewrapArgs? r = some a) :
    r.target.toNat = a.extent.val ∧ carries r 0x21 a.old.toNat ∧ carries r 0x22 a.new.toNat := by
  have hw := wellSpelled_rewrap h
  simp only [rewrapArgs?, Option.bind_eq_bind, Option.bind_eq_some_iff, Option.pure_def, Option.some.injEq] at h
  obtain ⟨-, -, extent, hextent, old, hold, new, hnew, rfl⟩ := h
  exact ⟨index?_eq_some.1 hextent, hw.carries_of_need hold fun _ hsize => ofNat_spells hsize (by rfl),
    hw.carries_of_need hnew fun _ hsize => ofNat_spells hsize (by rfl)⟩

theorem eraseArgs?_spells {a : EraseArgs} (h : eraseArgs? r = some a) :
    r.target.toNat = a.extent.val ∧ carries r 0x25 (if a.cut then 2 else 1) := by
  have hw := wellSpelled_erase h
  simp only [eraseArgs?, Option.bind_eq_bind, Option.bind_eq_some_iff, Option.pure_def, Option.some.injEq] at h
  obtain ⟨-, -, extent, hextent, cut, hcut, rfl⟩ := h
  exact ⟨index?_eq_some.1 hextent, hw.carries_of_need hcut fun _ _ => cutModeOf_spells⟩

theorem generateArgs?_spells {a : GenerateArgs} (h : generateArgs? r = some a) :
    r.target.toNat = a.extent.val ∧ carries r 0x20 a.credential.toNat ∧ carries r 0x23 (directionsCode a.dirs) ∧
      carries r 0x26 a.size.code.toNat ∧ carries r 0x27 a.mode.code.toNat := by
  have hw := wellSpelled_generate h
  simp only [generateArgs?, Option.bind_eq_bind, Option.bind_eq_some_iff, Option.pure_def, Option.some.injEq] at h
  obtain ⟨-, -, extent, hextent, credential, hcredential, dirs, hdirs, size, hsize, mode, hmode, rfl⟩ := h
  exact ⟨index?_eq_some.1 hextent, hw.carries_of_need hcredential fun _ hlen => ofNat_spells hlen (by rfl),
    hw.carries_of_need hdirs fun _ _ => directionsOf_spells, hw.carries_of_need hsize fun _ _ => keySizeOf_spells,
    hw.carries_of_need hmode fun _ _ => slotModeOf_spells⟩

theorem linkArgs?_spells {a : LinkArgs} (h : linkArgs? r = some a) :
    mayCarry r 0x30 (a.rate.map fun v => v.code.toNat) ∧ mayCarry r 0x31 (a.deviceAddress.map fun v => v.toNat) ∧
      mayCarry r 0x32 a.stretchLimit ∧ mayCarry r 0x33 a.freeWaitLimit ∧
      mayCarry r 0x34 (a.stallOnFull.map yesNoCode) := by
  have hw := wellSpelled_setLink h
  simp only [linkArgs?, Option.bind_eq_bind, Option.bind_eq_some_iff, Option.pure_def, Option.some.injEq] at h
  obtain ⟨-, -, rate, hrate, address, haddress, stretch, hstretch, wait, hwait, stall, hstall, rfl⟩ := h
  exact ⟨hw.mayCarry_of_carried hrate fun _ _ _ => rateOf_spells,
    hw.mayCarry_of_carried haddress fun _ _ _ => deviceAddress_spells,
    hw.mayCarry_of_inRange hstretch, hw.mayCarry_of_inRange hwait,
    hw.mayCarry_of_carried hstall fun _ _ _ => yesNo_spells⟩

theorem tickArgs?_spells {a : TickArgs} (h : tickArgs? r = some a) :
    mayCarry r 0x38 (a.period.map fun v => v.code.toNat) ∧ mayCarry r 0x39 a.drainLimit := by
  have hw := wellSpelled_setTick h
  simp only [tickArgs?, Option.bind_eq_bind, Option.bind_eq_some_iff, Option.pure_def, Option.some.injEq] at h
  obtain ⟨-, -, period, hperiod, limit, hlimit, rfl⟩ := h
  exact ⟨hw.mayCarry_of_carried hperiod fun _ _ _ => tickPeriodOf_spells, hw.mayCarry_of_inRange hlimit⟩

theorem clearArgs?_spells {fs : List Flag} (h : clearArgs? r = some fs) :
    ∃ i ∈ r.items, i.code = 0x40 ∧ i.value.map BitVec.toNat = fs.map fun f => f.idx.val + 1 := by
  obtain ⟨-, bs, hbs, hfs⟩ := clearArgs?_eq_some h
  obtain ⟨i, hi, hcode, rfl⟩ := valueOf_eq_some hbs
  exact ⟨i, hi, BitVec.eq_of_toNat_eq hcode, flagsOf_spells hfs⟩

theorem enableArgs?_spells {es : List (Flag × Bool)} (h : enableArgs? r = some es) :
    ∃ i ∈ r.items, i.code = 0x41 ∧
      i.value.map BitVec.toNat = es.flatMap fun p => [p.1.idx.val + 1, yesNoCode p.2] := by
  obtain ⟨-, ⟨bs, hbs, hes⟩, -⟩ := enableArgs?_eq_some h
  obtain ⟨i, hi, hcode, rfl⟩ := valueOf_eq_some hbs
  exact ⟨i, hi, BitVec.eq_of_toNat_eq hcode, enablesOf_spells hes⟩

end

/-- Settles O23: a whole request has an item in its range for every field that its rule requires, so every reader
answers; and what a reader answers is the number, or the flags, that its item spells. -/
theorem requestFieldsAreRead : Obligations.RequestFieldsAreRead := by
  unfold Obligations.RequestFieldsAreRead
  refine ⟨fun r => ⟨?bareRead, namespaceArgs?_of_whole, defineArgs?_of_whole, ?extentRead, policyArgs?_of_whole,
      slotOnly?_of_whole, unlockArgs?_of_whole, lockArgs?_of_whole, rewrapArgs?_of_whole, eraseArgs?_of_whole,
      generateArgs?_of_whole, linkArgs?_of_whole, tickArgs?_of_whole, clearArgs?_of_whole, enableArgs?_of_whole⟩,
    fun r => ⟨fun _ => namespaceArgs?_spells, fun _ => defineArgs?_spells, fun _ => extentOnly?_spells,
      fun _ => slotOnly?_spells, fun _ => policyArgs?_spells, fun _ => unlockArgs?_spells,
      fun _ => lockArgs?_spells, fun _ => rewrapArgs?_spells, fun _ => eraseArgs?_spells,
      fun _ => generateArgs?_spells, fun _ => linkArgs?_spells, fun _ => tickArgs?_spells,
      fun _ => clearArgs?_spells, fun _ => enableArgs?_spells⟩⟩
  case bareRead =>
    rintro (h | h)
    · exact bare_of_whole h rfl (wellSpelled_of_whole h).items
    · exact bare_of_whole h rfl (wellSpelled_of_whole h).items
  case extentRead =>
    rintro (h | h)
    · exact extentOnly?_of_wellSpelled (wellSpelled_of_whole h) rfl (wellSpelled_of_whole h).items
    · exact extentOnly?_of_wellSpelled (wellSpelled_of_whole h) rfl (wellSpelled_of_whole h).items

end Sys2Proof.Machine
end

section
/-! PROOFS. The command at the front of the queue (O1). -/

namespace Sys2Proof.Machine

/-- Settles O1: on a queue that is not empty, the step's match takes the branch that runs the front command. -/
theorem stepRunsFrontCommand : Obligations.StepRunsFrontCommand := by
  unfold Obligations.StepRunsFrontCommand
  intro c rest s hqueue
  exact step_of_pending hqueue

end Sys2Proof.Machine
end
